-- ==== Sys2Proof/Word.lean ====
section
/-! DEFINITION. The word types, the shapes of a request's operands and the small enumerations that several
files share (00_scope.md R7, 30_encoding.md R92 to R108, 42_frame_codec.md R196). -/

namespace Sys2Proof

/-- A byte of a frame (R7). -/
abbrev Byte := BitVec 8

/-- A 16-bit value: a register element, an address or a quantity (R60, R100). -/
abbrev Word := BitVec 16

/-- The value of a control and status register on the host port (R31). -/
abbrev Reg := BitVec 32

/-- The operands of the payload formats `RQ_RANGE` (R93: start, qty) and `RQ_SINGLE` (R94: address, value):
two 16-bit fields when the payload is four bytes, else the bytes of a payload of the wrong length, which the
functions answer with `ILLEGAL_DATA_VALUE` (R224). -/
inductive PairReq where
  | pair (first second : Word)
  | malformed (p : List Byte)
deriving DecidableEq, Repr

/-- The operands of the payload formats `RQ_MBITS` (R95) and `RQ_MREGS` (R96): the fields when the payload
has the five bytes that hold them, with whatever data bytes follow (their number is checked against `bc` by
the function, R224), else the bytes of a payload too short to hold the fields. -/
inductive MultiReq where
  | multi (start qty : Word) (bc : Byte) (data : List Byte)
  | short (p : List Byte)
deriving DecidableEq, Repr

/-- The exception codes (R108). -/
inductive ExcCode where
  | illegalFunction
  | illegalDataAddress
  | illegalDataValue
  | slaveDeviceFailure
deriving DecidableEq, Repr

/-- The FrameError kinds (R196). -/
inductive FrameError where
  | crcMismatch
  | truncated
  | charError
  | overrun
  | badPdu
deriving DecidableEq, Repr

/-- A decoded frame (R90, R195): address, function code and payload, without the CRC. -/
structure Frame where
  addr : Byte
  fc : Byte
  payload : List Byte
deriving DecidableEq, Repr

/-- The two 1-bit tables (R20 to R22). -/
inductive BitTable where
  | coils
  | di
deriving DecidableEq, Repr

/-- The two 16-bit tables (R20, R23, R24). -/
inductive RegTable where
  | hr
  | ir
deriving DecidableEq, Repr

end Sys2Proof
end

