-- ==== Sys2Proof/Machine/Bits.lean ====
section
/-! DEFINITION. Field assembly and bit packing: 00_scope.md R8, 20_memory.md R64 to R66, 30_encoding.md R100 to
R104. -/

namespace Sys2Proof.Machine

/-- `hi8(v) = v[15:8]` (R8). -/
def hi8 (v : Word) : Byte := v.extractLsb' 8 8

/-- `lo8(v) = v[7:0]` (R8). -/
def lo8 (v : Word) : Byte := v.extractLsb' 0 8

/-- `BE16(h, l) = h * 256 + l` (R8). -/
def be16 (h l : Byte) : Word := h ++ l

/-- `ceil(a / b)` (R8). -/
def ceilDiv (a b : Nat) : Nat := (a + b - 1) / b

/-- The `k`-th bit of a sequence, 0 beyond its end (the padding of R104). -/
def bitAt (b : List (BitVec 1)) (k : Nat) : BitVec 1 := b.getD k 0#1

/-- Byte `i` of `pack(b)`: bit `j` is `b[8i + j]`, or 0 beyond the sequence (R104). -/
def packByte (b : List (BitVec 1)) (i : Nat) : Byte :=
  bitAt b (8 * i + 7) ++ bitAt b (8 * i + 6) ++ bitAt b (8 * i + 5) ++ bitAt b (8 * i + 4) ++
    bitAt b (8 * i + 3) ++ bitAt b (8 * i + 2) ++ bitAt b (8 * i + 1) ++ bitAt b (8 * i)

/-- `pack(b[0 .. q-1])`, `ceil(q/8)` bytes, least significant bit first (R104). -/
def pack (b : List (BitVec 1)) : List Byte :=
  (List.range (ceilDiv b.length 8)).map (packByte b)

/-- `unpack(d, q)`: `b[k] = d[k div 8][k mod 8]` for `k < q` (R104). -/
def unpack (d : List Byte) (q : Nat) : List (BitVec 1) :=
  (List.range q).map fun k => (d.getD (k / 8) 0#8).extractLsb' (k % 8) 1

/-- Register values in line order, each high byte first (R64, R101). -/
def regBytes (vs : List Word) : List Byte :=
  vs.flatMap fun v => [hi8 v, lo8 v]

/-- The first `n` register values of a byte sequence: value `i` is `BE16(d[2i], d[2i+1])` (R96, R97). -/
def bytesRegs (d : List Byte) (n : Nat) : List Word :=
  (List.range n).map fun i => be16 (d.getD (2 * i) 0#8) (d.getD (2 * i + 1) 0#8)

/-- Word `w` of a bit sequence of length `q` in a window: the sum of `b[16w + j] * 2^j` over `j < 16` with
`16w + j < q` (R52, R303). -/
def windowWord (b : List (BitVec 1)) (w : Nat) : Word :=
  packByte b (2 * w + 1) ++ packByte b (2 * w)

end Sys2Proof.Machine
end

