-- ==== Sys2Proof/Machine/Crc.lean ====
section
/-! DEFINITION. The CRC-16/MODBUS generator (40_crc.md). -/

namespace Sys2Proof.Machine

/-- `CRC_INIT`: the register's initial value (R131). -/
def crcInitial : Word := 0xFFFF#16

/-- One of the eight shifts of `CRC_UPDATE`: a logical right shift, and an XOR with 0xA001 when the bit shifted
out is 1 (R132). -/
def crcShift (c : Word) : Word :=
  if c.getLsbD 0 then (c >>> 1) ^^^ 0xA001#16 else c >>> 1

/-- `n` shifts. -/
def crcShifts : Nat → Word → Word
  | 0, c => c
  | n + 1, c => crcShifts n (crcShift c)

/-- `CRC_UPDATE(b)` (R132). -/
def crcUpdate (c : Word) (b : Byte) : Word :=
  crcShifts 8 (c ^^^ b.setWidth 16)

/-- The register after `CRC_UPDATE` of each byte in order, from any start value (R133). -/
def crcRun (c : Word) (s : List Byte) : Word := s.foldl crcUpdate c

/-- `crc16(s)` (R133). -/
def crc16 (s : List Byte) : Word := crcRun crcInitial s

/-- `crc_gen(s)`: the two CRC bytes, low byte first (R134). -/
def crcGen (s : List Byte) : List Byte := [lo8 (crc16 s), hi8 (crc16 s)]

/-- `crc_ok(f)` (R135); the caller has checked that `f` has at least four bytes. -/
def crcOk (f : List Byte) : Bool :=
  decide (crc16 (f.take (f.length - 2)) =
    be16 (f.getD (f.length - 1) 0#8) (f.getD (f.length - 2) 0#8))

end Sys2Proof.Machine
end

