-- ==== Sys2Proof/Syntax.lean ====
section
/-! DEFINITION. The instructions: one constructor for each row of spec/opcode_table.json. -/

namespace Sys2Proof

/-- The rows of the opcode table. The first eight are request frames (30_encoding.md R107), `exception` is a
frame whose function code has bit 7 set (R99, R106), the next five are the command bits of `CTRL`
(10_state.md R33), the last two are writes of `CRC_DATA` and `EVT`. A frame's `addr` is its byte 0 (R90). -/
inductive Instr where
  /-- `READ_COILS`, function code 0x01 (R241): start, qty. -/
  | readCoils (addr : Byte) (q : PairReq)
  /-- `READ_DISCRETE_INPUTS`, function code 0x02 (R242): start, qty. -/
  | readDiscreteInputs (addr : Byte) (q : PairReq)
  /-- `READ_HOLDING_REGISTERS`, function code 0x03 (R243): start, qty. -/
  | readHoldingRegisters (addr : Byte) (q : PairReq)
  /-- `READ_INPUT_REGISTERS`, function code 0x04 (R244): start, qty. -/
  | readInputRegisters (addr : Byte) (q : PairReq)
  /-- `WRITE_SINGLE_COIL`, function code 0x05 (R261): address, value. -/
  | writeSingleCoil (addr : Byte) (q : PairReq)
  /-- `WRITE_SINGLE_REGISTER`, function code 0x06 (R262): address, value. -/
  | writeSingleRegister (addr : Byte) (q : PairReq)
  /-- `WRITE_MULTIPLE_COILS`, function code 0x0F (R263). -/
  | writeMultipleCoils (addr : Byte) (q : MultiReq)
  /-- `WRITE_MULTIPLE_REGISTERS`, function code 0x10 (R264). -/
  | writeMultipleRegisters (addr : Byte) (q : MultiReq)
  /-- `EXCEPTION`, a frame with bit 7 of the function code set; `fc7` is the function code's low seven bits (R106,
  R120, R228). -/
  | exception (addr : Byte) (fc7 : BitVec 7) (payload : List Byte)
  /-- `OPEN`, bit 0 of a write to `CTRL` (R364). -/
  | openCmd
  /-- `CLOSE`, bit 1 of a write to `CTRL` (R365). -/
  | closeCmd
  /-- `GO`, bit 2 of a write to `CTRL` (R296). -/
  | goCmd
  /-- `DSGO`, bit 3 of a write to `CTRL` (R370). -/
  | dsgoCmd
  /-- `CRCINIT`, bit 4 of a write to `CTRL` (R137). -/
  | crcInit
  /-- A write to `CRC_DATA` (R137); bits 31:8 of the written value are ignored. -/
  | crcDataWrite (b : Byte)
  /-- A write to `EVT` (R374); the operand is bits 4:0 of the written value. -/
  | evtClear (mask : BitVec 5)
deriving DecidableEq, Repr

end Sys2Proof
end

