-- ==== Sys2Proof/Machine/Operands.lean ====
section
/-! DEFINITION. The payload formats of requests and responses (30_encoding.md R92 to R99), function-code bytes
(R106, R107), exception codes (R108), FrameError codes (42_frame_codec.md R196) and the frame encoder
(R182). -/

namespace Sys2Proof.Machine

/-- The payload bytes of `RQ_RANGE` and `RQ_SINGLE` (R93, R94). -/
def pairPayload (q : PairReq) : List Byte :=
  match q with
  | .pair a b => [hi8 a, lo8 a, hi8 b, lo8 b]
  | .malformed p => p

/-- The payload bytes of `RQ_MBITS` and `RQ_MREGS` (R95, R96). -/
def multiPayload (q : MultiReq) : List Byte :=
  match q with
  | .multi start qty bc data => hi8 start :: lo8 start :: hi8 qty :: lo8 qty :: bc :: data
  | .short p => p

/-- The operands of a payload of `RQ_RANGE` or `RQ_SINGLE` (R93, R94, R100). -/
def pairOf (p : List Byte) : PairReq :=
  match p with
  | [a, b, c, d] => .pair (be16 a b) (be16 c d)
  | p => .malformed p

/-- The operands of a payload of `RQ_MBITS` or `RQ_MREGS` (R95, R96, R100). -/
def multiOf (p : List Byte) : MultiReq :=
  match p with
  | a :: b :: c :: d :: bc :: data => .multi (be16 a b) (be16 c d) bc data
  | p => .short p

/-- A byte count and the data bytes it counts: `RS_BITS` and `RS_REGS` (R97, R103). -/
def countedPayload (d : List Byte) : List Byte := BitVec.ofNat 8 d.length :: d

/-- `RS_RANGE`: start and quantity of the request (R98); with the two fields of an `RQ_SINGLE` it is `RS_ECHO`. -/
def rangePayload (start qty : Word) : List Byte := [hi8 start, lo8 start, hi8 qty, lo8 qty]

/-- The numbers of the exception codes (R108). -/
def excByte (c : ExcCode) : Byte :=
  match c with
  | .illegalFunction => 0x01#8
  | .illegalDataAddress => 0x02#8
  | .illegalDataValue => 0x03#8
  | .slaveDeviceFailure => 0x04#8

/-- The codes of the FrameError kinds in `RESULT.FERR` and `SRVSTAT.LAST_FERR`, 0 for none (R45, R48, R196). -/
def ferrCode (k : Option FrameError) : BitVec 4 :=
  match k with
  | none => 0#4
  | some .crcMismatch => 1#4
  | some .truncated => 2#4
  | some .charError => 3#4
  | some .overrun => 4#4
  | some .badPdu => 5#4

/-- The function code of an exception response: `fc OR 0x80` (R106). -/
def excFc (fc : Byte) : Byte := fc ||| 0x80#8

/-- The function code byte with bit 7 set and the given low bits (R106). -/
def highFc (fc7 : BitVec 7) : Byte := 1#1 ++ fc7

/-- `encode(address, functionCode, payload)` (R182). -/
def encodeFrame (addr fc : Byte) (p : List Byte) : List Byte :=
  (addr :: fc :: p) ++ crcGen (addr :: fc :: p)

end Sys2Proof.Machine
end

