-- ==== Sys2Proof/WellFormed.lean ====
section
/-! DEFINITION. Which instruction terms stand for something the encoding can carry. -/

namespace Sys2Proof

/-- The longest payload a frame of 256 bytes holds (30_encoding.md R91, 42_frame_codec.md R181). -/
def maxPayload : Nat := 252

/-- A `malformed` payload is one that is not four bytes long, the length of `RQ_RANGE` and `RQ_SINGLE` (R93, R94). -/
def PairReq.wellFormed (q : PairReq) : Bool :=
  match q with
  | .pair _ _ => true
  | .malformed p => decide (p.length ≠ 4) && decide (p.length ≤ maxPayload)

/-- A `short` payload is one with fewer than the five bytes that `RQ_MBITS` and `RQ_MREGS` begin with (R95, R96). -/
def MultiReq.wellFormed (q : MultiReq) : Bool :=
  match q with
  | .multi _ _ _ data => decide (5 + data.length ≤ maxPayload)
  | .short p => decide (p.length < 5)

/-- An instruction term whose operands fit the frame (R91). -/
def Instr.wellFormed (i : Instr) : Bool :=
  match i with
  | .readCoils _ q => q.wellFormed
  | .readDiscreteInputs _ q => q.wellFormed
  | .readHoldingRegisters _ q => q.wellFormed
  | .readInputRegisters _ q => q.wellFormed
  | .writeSingleCoil _ q => q.wellFormed
  | .writeSingleRegister _ q => q.wellFormed
  | .writeMultipleCoils _ q => q.wellFormed
  | .writeMultipleRegisters _ q => q.wellFormed
  | .exception _ _ p => decide (p.length ≤ maxPayload)
  | .openCmd => true
  | .closeCmd => true
  | .goCmd => true
  | .dsgoCmd => true
  | .crcInit => true
  | .crcDataWrite _ => true
  | .evtClear _ => true

end Sys2Proof
end

