-- ==== Sys2Proof/Decode.lean ====
section
/-! DEFINITION. Decoding and encoding: received frames (42_frame_codec.md R195), the function-code map
(30_encoding.md R107), commands and register writes of the host port (10_state.md R33, 48_host_interface.md R361
to R363). -/

namespace Sys2Proof

open Sys2Proof.Machine

/-- What an instruction is read from: the bytes of a whole frame on the line, or a register write of the host. -/
inductive Code where
  | frame (bytes : List Byte)
  | csrWrite (n : Nat) (v : Reg)
deriving DecidableEq, Repr

/-- Why the decoder gives no instruction. -/
inductive Reject where
  /-- The codec drops the frame (R195, R196). -/
  | frameError (k : FrameError)
  /-- The function code has no row in the map (R119); the router answers `ILLEGAL_FUNCTION` (R222). -/
  | unsupportedFunction (fc : Byte)
  /-- A write to this register is a plain register access or has no effect (R361). -/
  | plainRegister (n : Nat)
deriving DecidableEq, Repr

/-- `decode(f)` (R195) with the three receiver flags; the tests are made in the order written there. -/
def decodeFrame (overrun charErr gap : Bool) (f : List Byte) : Except FrameError Frame :=
  if overrun then .error .overrun
  else if charErr then .error .charError
  else if gap || decide (f.length < 4) then .error .truncated
  else if !(crcOk f) then .error .crcMismatch
  else .ok { addr := f.getD 0 0#8, fc := f.getD 1 0#8, payload := (f.take (f.length - 2)).drop 2 }

/-- The function-code map (R107): the instruction of a frame, by the whole byte `f[1]`; codes with bit 7 set are
the `EXCEPTION` row; every other code is rejected by name (R119). -/
def decodePdu (addr fc : Byte) (p : List Byte) : Except Reject Instr :=
  if fc = 0x01#8 then .ok (.readCoils addr (pairOf p))
  else if fc = 0x02#8 then .ok (.readDiscreteInputs addr (pairOf p))
  else if fc = 0x03#8 then .ok (.readHoldingRegisters addr (pairOf p))
  else if fc = 0x04#8 then .ok (.readInputRegisters addr (pairOf p))
  else if fc = 0x05#8 then .ok (.writeSingleCoil addr (pairOf p))
  else if fc = 0x06#8 then .ok (.writeSingleRegister addr (pairOf p))
  else if fc = 0x0F#8 then .ok (.writeMultipleCoils addr (multiOf p))
  else if fc = 0x10#8 then .ok (.writeMultipleRegisters addr (multiOf p))
  else if fc.getLsbD 7 then .ok (.exception addr (fc.extractLsb' 0 7) p)
  else .error (.unsupportedFunction fc)

/-- The commands of a write of `v` to `CTRL`, in the fixed order `CLOSE`, `OPEN`, `CRCINIT`, `DSGO`, `GO`; bits
31:5 are ignored (R33, R363). -/
def decodeCtrl (v : Reg) : List Instr :=
  (if v.getLsbD 1 then [.closeCmd] else []) ++ (if v.getLsbD 0 then [.openCmd] else []) ++
    (if v.getLsbD 4 then [.crcInit] else []) ++ (if v.getLsbD 3 then [.dsgoCmd] else []) ++
    (if v.getLsbD 2 then [.goCmd] else [])

/-- The instructions of a host register write (R361): `CTRL` is number 0x00, `EVT` 0x02, `CRC_DATA` 0x11 (R31). -/
def decodeCsr (n : Nat) (v : Reg) : Except Reject (List Instr) :=
  if n = 0x00 then .ok (decodeCtrl v)
  else if n = 0x02 then .ok [.evtClear (v.extractLsb' 0 5)]
  else if n = 0x11 then .ok [.crcDataWrite (v.extractLsb' 0 8)]
  else .error (.plainRegister n)

/-- The decoder: total, rejecting by name. A write to `CTRL` stands for the commands its bits name, in their order; a
frame for one instruction. -/
def decode (c : Code) : Except Reject (List Instr) :=
  match c with
  | .frame f =>
    match decodeFrame false false false f with
    | .error k => .error (.frameError k)
    | .ok fr =>
      match decodePdu fr.addr fr.fc fr.payload with
      | .error r => .error r
      | .ok i => .ok [i]
  | .csrWrite n v => decodeCsr n v

/-- The encoder (R90, R93 to R96, R99, R107, R182; R33, R361): the bytes of the frame, or the register write with every
ignored bit 0. -/
def encode (i : Instr) : Code :=
  match i with
  | .readCoils a q => .frame (encodeFrame a 0x01#8 (pairPayload q))
  | .readDiscreteInputs a q => .frame (encodeFrame a 0x02#8 (pairPayload q))
  | .readHoldingRegisters a q => .frame (encodeFrame a 0x03#8 (pairPayload q))
  | .readInputRegisters a q => .frame (encodeFrame a 0x04#8 (pairPayload q))
  | .writeSingleCoil a q => .frame (encodeFrame a 0x05#8 (pairPayload q))
  | .writeSingleRegister a q => .frame (encodeFrame a 0x06#8 (pairPayload q))
  | .writeMultipleCoils a q => .frame (encodeFrame a 0x0F#8 (multiPayload q))
  | .writeMultipleRegisters a q => .frame (encodeFrame a 0x10#8 (multiPayload q))
  | .exception a fc7 p => .frame (encodeFrame a (highFc fc7) p)
  | .openCmd => .csrWrite 0x00 0x01#32
  | .closeCmd => .csrWrite 0x00 0x02#32
  | .goCmd => .csrWrite 0x00 0x04#32
  | .dsgoCmd => .csrWrite 0x00 0x08#32
  | .crcInit => .csrWrite 0x00 0x10#32
  | .crcDataWrite b => .csrWrite 0x11 (b.setWidth 32)
  | .evtClear m => .csrWrite 0x02 (m.setWidth 32)

/-- The payload of zeros that the operand fields of a function code take: five bytes for 0x0F and 0x10, one for an
exception, four for the others (R93 to R96, R99). -/
def zeroPayload (fc : Byte) : List Byte :=
  if fc = 0x0F#8 ∨ fc = 0x10#8 then List.replicate 5 0#8
  else if fc.getLsbD 7 then [0#8]
  else List.replicate 4 0#8

/-- The transfer that carries the bits `w` of an opcode-table row of `nbits` bits: 8 bits are a frame's function
code, in a frame to unit 1 whose operands are zeros and whose CRC is right; 10 bits (two whole bytes) a register
number, written with 0; 32 bits a value written to `CTRL`. DESIGN CHOICE: the frame's address is 1 (log 12). -/
def tableCode (nbits w : Nat) : Code :=
  if nbits ≤ 8 then
    .frame (encodeFrame 0x01#8 (BitVec.ofNat 8 w) (zeroPayload (BitVec.ofNat 8 w)))
  else if nbits ≤ 16 then .csrWrite w 0#32
  else .csrWrite 0x00 (BitVec.ofNat 32 w)

/-- The first instruction the decoder reads from an opcode-table word. -/
def decodeTableWord (nbits w : Nat) : Option Instr :=
  match decode (tableCode nbits w) with
  | .ok (i :: _) => some i
  | .ok [] => none
  | .error _ => none

end Sys2Proof
end

