-- ==== Sys2Proof/Config.lean ====
section
/-! DEFINITION. What an instance of the hardware fixes: the parameters (00_scope.md R5) and the constants
(00_scope.md R6). -/

namespace Sys2Proof

/-- The parameters of one instance (R5): the sizes of the four tables and whether the function codes 0x02,
0x04, 0x0F and 0x10 are present. -/
structure Params where
  nCoils : Nat
  nDi : Nat
  nHr : Nat
  nIr : Nat
  extFc : Bool
deriving DecidableEq, Repr

/-- `MAX_FRAME`, the capacity of a frame buffer in bytes (R6). -/
def Config.maxFrame : Nat := 256

/-- `WIN_WORDS`, the number of words of a host window (R6). -/
def Config.winWords : Nat := 125

/-- `SIL_SAT`, the value at which the silence counter saturates (R6). -/
def Config.silSat : Nat := 4294967295

/-- The values the spec's examples use (R5): every table 100 elements, `EXT_FC` true. DESIGN CHOICE: they are the
instance of `State.reset`; every other definition takes the instance from State (log 3). -/
def Config.exampleInstance : Params where
  nCoils := 100
  nDi := 100
  nHr := 100
  nIr := 100
  extFc := true

/-- The range R5 gives the table sizes. -/
def Config.legalSize (n : Nat) : Bool := decide (1 ≤ n) && decide (n ≤ 65536)

/-- The parameters lie in the ranges of R5. -/
def Config.legal (p : Params) : Bool :=
  Config.legalSize p.nCoils && Config.legalSize p.nDi && Config.legalSize p.nHr && Config.legalSize p.nIr

end Sys2Proof
end

