-- ==== Sys2Proof/Machine/State.lean ====
section
/-! DEFINITION. The state of the block (10_state.md), the events of its step model (00_scope.md R10), why a
step can stop, and the state right after reset (10_state.md R58, 70_reset_and_hazards.md R440). -/

namespace Sys2Proof.Machine

/-- A table, window or buffer: (index, value) pairs, indices strictly rising, no value 0; an index that is not
listed reads as 0 (R58; log 10). -/
abbrev Cells (w : Nat) := List (Nat × BitVec w)

/-- The Data Store: four tables that do not alias (R20 to R24). -/
structure Memory where
  coils : Cells 1
  di : Cells 1
  hr : Cells 16
  ir : Cells 16
deriving DecidableEq, Repr

/-- The role a session is opened in (R39): 0 client, 1 server. -/
inductive Role where
  | client
  | server
deriving DecidableEq, Repr

/-- `cstate` (R25). -/
inductive CState where
  | idle
  | sending
  | await
  | matched
  | timedOut
  | crcErr
deriving DecidableEq, Repr

/-- `sstate` (R26). -/
inductive SState where
  | listen
  | dispatch
  | respond
deriving DecidableEq, Repr

/-- `rx_state` (R27). -/
inductive RxState where
  | init
  | idle
  | recv
  | ctrlWait
deriving DecidableEq, Repr

/-- `tcause` (R30). -/
inductive TCause where
  | none
  | badConfig
  | closedInFlight
  | notOpen
deriving DecidableEq, Repr

/-- `RESULT.CODE` (R45). -/
inductive ResultCode where
  | none
  | ok
  | protocolException
  | timeout
  | corruptedResponse
  | transportError
  | rejected
  | pending
deriving DecidableEq, Repr

/-- The fields of `RESULT` (R45). -/
structure Result where
  code : ResultCode
  ferr : Option FrameError
  exc : Byte
  resends : Byte
deriving DecidableEq, Repr

/-- The fields of `SRVSTAT` (R48). -/
structure SrvStat where
  lastFerr : Option FrameError
  lastExc : Byte
  lastFc : Byte
  lastBcast : Bool
deriving DecidableEq, Repr

/-- The latched configuration (R42). -/
structure Cfg where
  baud : BitVec 24
  parity : BitVec 2
  stop2 : Bool
  role : Role
  bcastEn : Bool
  unit : Byte
  cb : BitVec 4
  t15 : BitVec 5
  t35 : BitVec 16
  tmo : BitVec 32
deriving DecidableEq, Repr

/-- The stored fields of the host's registers and windows (R28, R30, R34 to R41, R43 to R48, R52, R53). -/
structure Regs where
  evt : BitVec 5
  ien : BitVec 5
  baud : BitVec 24
  line : BitVec 7
  timeoutMs : BitVec 16
  ift : BitVec 16
  mode : BitVec 2
  unit : Byte
  retry : Byte
  req0 : BitVec 16
  req1 : BitVec 32
  result : Result
  dsTable : BitVec 2
  dsWr : Bool
  dsStart : BitVec 16
  dsCount : BitVec 8
  dsErr : Bool
  tcause : TCause
  hcrc : Word
  srv : SrvStat
  win : Cells 16
  dswin : Cells 16
deriving DecidableEq, Repr

/-- The frame receiver (R27, R29, R50, R57). -/
structure Rx where
  state : RxState
  en : Bool
  buf : Cells 8
  len : BitVec 9
  overrun : Bool
  charErr : Bool
  gap : Bool
deriving DecidableEq, Repr

/-- The frame transmitter (R51). -/
structure Tx where
  buf : Cells 8
  len : BitVec 9
  idx : BitVec 9
  active : Bool
deriving DecidableEq, Repr

/-- A latched client request `rq` (R56). -/
structure Request where
  unit : Byte
  fc : Byte
  start : Word
  arg : Word
deriving DecidableEq, Repr

/-- The client engine (R25, R56). -/
structure Client where
  state : CState
  rq : Request
  retryBound : Byte
  retryLeft : Byte
  respElapsed : BitVec 32
deriving DecidableEq, Repr

/-- The events of the step model (R10). `rstRise` is the end of the reset input's low level (R440; log 5);
`rxLine` is a character given by its samples (R158; log 14). -/
inductive Event where
  | reset
  | rstRise
  | csrWrite (n : Nat) (v : Reg)
  | csrRead (n : Nat)
  | idleTick
  | rxChar (b : Byte) (err : Bool)
  | rxLine (samples : List Bool)
  | txChar
deriving DecidableEq, Repr

/-- What a step puts out (log 2): the value a `CsrRead` returns (R362), or the byte a `TxChar` emits with its bits on
`txd` (R159, R186). -/
inductive StepOut where
  | nothing
  | readData (v : Reg)
  | txChar (b : Byte) (bits : List Bool)
deriving DecidableEq, Repr

/-- The state of the block. `inst`, `inputs`, `out` are the model's own fields (logs 1, 2, 3); `rstN` is the
level of the reset input (log 5). -/
structure State where
  inst : Params
  mem : Memory
  regs : Regs
  isOpen : Bool
  cfg : Cfg
  rx : Rx
  tx : Tx
  client : Client
  sstate : SState
  sil : BitVec 32
  rstN : Bool
  inputs : List Event
  out : StepOut
deriving DecidableEq, Repr

/-- Why a step can fault. -/
inductive Fault where
  /-- `MemRead` or `MemWrite` was used outside its table, where R70 and R71 do not define it. Raised by the access
  primitives only; every caller checks the range first (R68, R69), so no step raises it. Safe (log 20). -/
  | tableRange
deriving DecidableEq, Repr

/-- Why a step can refuse. -/
inductive Refusal where
  /-- An instruction without a meaning. Raised by no arm of this model. Safe. -/
  | notModelled (mnemonic : String)
deriving DecidableEq, Repr

/-- The Data Store after reset: every element 0 (R21 to R24, R58). -/
def Memory.reset : Memory where
  coils := []
  di := []
  hr := []
  ir := []

/-- `RESULT` after reset (R45). -/
def Result.reset : Result where
  code := .none
  ferr := none
  exc := 0#8
  resends := 0#8

/-- `SRVSTAT` after reset (R48). -/
def SrvStat.reset : SrvStat where
  lastFerr := none
  lastExc := 0#8
  lastFc := 0#8
  lastBcast := false

/-- `cfg` after reset: all fields 0 (R42). -/
def Cfg.reset : Cfg where
  baud := 0#24
  parity := 0#2
  stop2 := false
  role := .client
  bcastEn := false
  unit := 0#8
  cb := 0#4
  t15 := 0#5
  t35 := 0#16
  tmo := 0#32

/-- The host's registers after reset (R31, R58). -/
def Regs.reset : Regs where
  evt := 0#5
  ien := 0#5
  baud := 0#24
  line := 0x08#7
  timeoutMs := 1000#16
  ift := 0#16
  mode := 0x02#2
  unit := 0#8
  retry := 0#8
  req0 := 0#16
  req1 := 0#32
  result := Result.reset
  dsTable := 0#2
  dsWr := false
  dsStart := 0#16
  dsCount := 0#8
  dsErr := false
  tcause := .none
  hcrc := 0xFFFF#16
  srv := SrvStat.reset
  win := []
  dswin := []

/-- The receiver after reset (R58); DESIGN CHOICE: the contents of `rx_buf`, unspecified (R442), are 0 (log 4). -/
def Rx.reset : Rx where
  state := .init
  en := false
  buf := []
  len := 0#9
  overrun := false
  charErr := false
  gap := false

/-- The transmitter after reset (R58); DESIGN CHOICE: the contents of `tx_buf`, unspecified (R442), are 0 (log 4). -/
def Tx.reset : Tx where
  buf := []
  len := 0#9
  idx := 0#9
  active := false

/-- `rq` after reset (R56). -/
def Request.reset : Request where
  unit := 0#8
  fc := 0#8
  start := 0#16
  arg := 0#16

/-- The client engine after reset (R58). -/
def Client.reset : Client where
  state := .idle
  rq := Request.reset
  retryBound := 0#8
  retryLeft := 0#8
  respElapsed := 0#32

/-- The state an instance of the hardware is in right after reset, with `rst_n` high again (R58, R440). -/
def State.resetOf (p : Params) : State where
  inst := p
  mem := Memory.reset
  regs := Regs.reset
  isOpen := false
  cfg := Cfg.reset
  rx := Rx.reset
  tx := Tx.reset
  client := Client.reset
  sstate := .listen
  sil := 0#32
  rstN := true
  inputs := []
  out := .nothing

/-- The machine right after reset, for the example instance. DESIGN CHOICE: the instance (log 3). -/
def State.reset : State := State.resetOf Config.exampleInstance

end Sys2Proof.Machine
end

