-- ==== Sys2Proof/Machine/Flags.lean ====
section
/-! DEFINITION. Event flags, the interrupt, the fields of `LINE` and `MODE`, and the assembly of the registers a
host reads (10_state.md R28 to R49, 48_host_interface.md R362, R374, R375). -/

namespace Sys2Proof.Machine

/-- `EVT.DONE`, bit 0 (R28). -/
def evtDone : BitVec 5 := 0x01#5

/-- `EVT.SRVREQ`, bit 1 (R28). -/
def evtSrvreq : BitVec 5 := 0x02#5

/-- `EVT.RXDROP`, bit 2 (R28). -/
def evtRxdrop : BitVec 5 := 0x04#5

/-- `EVT.TERR`, bit 3 (R28). -/
def evtTerr : BitVec 5 := 0x08#5

/-- `EVT.CMDREJ`, bit 4 (R28). -/
def evtCmdrej : BitVec 5 := 0x10#5

/-- Set event flags; the block never clears one (R28, R374). -/
def State.setEvt (f : BitVec 5) (s : State) : State :=
  { s with regs := { s.regs with evt := s.regs.evt ||| f } }

/-- The `irq` output: 1 exactly when `(EVT AND IEN)[4:0] != 0` (R375). -/
def State.irq (s : State) : Bool := decide (s.regs.evt &&& s.regs.ien ≠ 0#5)

/-- The `tx_en` output: 1 exactly while `tx_active = 1` (R12, R165). -/
def State.txEn (s : State) : Bool := s.tx.active

/-- The levels the last step put on `txd`: the bits of a character, else the idle level 1 (R152, R153). -/
def State.txd (s : State) : List Bool :=
  match s.out with
  | .txChar _ bits => bits
  | .readData _ => [true]
  | .nothing => [true]

/-- `LINE.DBITS`, bits 3:0 (R36). -/
def lineDbits (line : BitVec 7) : BitVec 4 := line.extractLsb' 0 4

/-- `LINE.PARITY`, bits 5:4 (R36). -/
def lineParity (line : BitVec 7) : BitVec 2 := line.extractLsb' 4 2

/-- `LINE.STOP2`, bit 6 (R36). -/
def lineStop2 (line : BitVec 7) : Bool := line.getLsbD 6

/-- `MODE.ROLE`, bit 0 (R39). -/
def modeRole (mode : BitVec 2) : Role := if mode.getLsbD 0 then .server else .client

/-- `MODE.BCAST_EN`, bit 1 (R39). -/
def modeBcastEn (mode : BitVec 2) : Bool := mode.getLsbD 1

/-- A 1-bit field in bit 0 of a register. -/
def bitReg (b : Bool) : Reg := if b then 1#32 else 0#32

/-- `cfg.role` as `STATUS.ROLE` shows it (R32). -/
def roleReg (r : Role) : Reg :=
  match r with
  | .client => 0#32
  | .server => 1#32

/-- The numbers of `cstate` (R25). -/
def cstateReg (c : CState) : Reg :=
  match c with
  | .idle => 0#32
  | .sending => 1#32
  | .await => 2#32
  | .matched => 3#32
  | .timedOut => 4#32
  | .crcErr => 5#32

/-- The numbers of `sstate` (R26). -/
def sstateReg (c : SState) : Reg :=
  match c with
  | .listen => 0#32
  | .dispatch => 1#32
  | .respond => 2#32

/-- The numbers of `rx_state` (R27). -/
def rxStateReg (c : RxState) : Reg :=
  match c with
  | .init => 0#32
  | .idle => 1#32
  | .recv => 2#32
  | .ctrlWait => 3#32

/-- The numbers of `tcause` (R30). -/
def tcauseReg (c : TCause) : Reg :=
  match c with
  | .none => 0#32
  | .badConfig => 1#32
  | .closedInFlight => 2#32
  | .notOpen => 3#32

/-- The numbers of `RESULT.CODE` (R45). -/
def resultCodeReg (c : ResultCode) : Reg :=
  match c with
  | .none => 0#32
  | .ok => 1#32
  | .protocolException => 2#32
  | .timeout => 3#32
  | .corruptedResponse => 4#32
  | .transportError => 5#32
  | .rejected => 6#32
  | .pending => 7#32

/-- `STATUS.BUSY` (R32). -/
def State.busy (s : State) : Bool :=
  decide (s.client.state ≠ .idle) || decide (s.sstate ≠ .listen) || s.tx.active

/-- `STATUS`, assembled on every read (R32). -/
def statusReg (s : State) : Reg :=
  bitReg s.isOpen ||| bitReg s.busy <<< 1 ||| roleReg s.cfg.role <<< 2 ||| bitReg s.tx.active <<< 3 |||
    cstateReg s.client.state <<< 4 ||| sstateReg s.sstate <<< 8 ||| rxStateReg s.rx.state <<< 12 |||
    bitReg s.rx.en <<< 14 ||| tcauseReg s.regs.tcause <<< 16

/-- `RESULT` as read (R45, R362). -/
def resultReg (r : Result) : Reg :=
  resultCodeReg r.code ||| (ferrCode r.ferr).setWidth 32 <<< 4 ||| r.exc.setWidth 32 <<< 8 |||
    r.resends.setWidth 32 <<< 16

/-- `SRVSTAT` as read (R48, R362). -/
def srvstatReg (r : SrvStat) : Reg :=
  (ferrCode r.lastFerr).setWidth 32 ||| r.lastExc.setWidth 32 <<< 8 ||| r.lastFc.setWidth 32 <<< 16 |||
    bitReg r.lastBcast <<< 24

/-- `DSCMD` as read (R46). -/
def dscmdReg (r : Regs) : Reg :=
  r.dsTable.setWidth 32 ||| bitReg r.dsWr <<< 2 ||| r.dsStart.setWidth 32 <<< 16

end Sys2Proof.Machine
end

