-- ==== Sys2Proof/Machine/Uart.lean ====
section
/-! DEFINITION. The UART controller: character format, derived durations (41_uart.md). -/

namespace Sys2Proof.Machine

/-- `CB`, the length of a character in ticks: start bit, eight data bits, parity bit if any, stop bits (R160). -/
def charTicks (parity : BitVec 2) (stop2 : Bool) : Nat :=
  1 + 8 + (if parity = 0#2 then 0 else 1) + (if stop2 then 2 else 1)

/-- `T15 = ceil(1.5 * CB)` (R161). -/
def t15Of (cb : Nat) : Nat := (3 * cb + 1) / 2

/-- `T35`: `IFT.TICKS` when it is not 0, else `ceil(3.5 * CB)` (R162). -/
def t35Of (ift cb : Nat) : Nat := if ift = 0 then (7 * cb + 1) / 2 else ift

/-- The response timeout in ticks (R163). -/
def tmoOf (ms baud : Nat) : Nat := (ms * baud + 999) / 1000

/-- The data bits of a byte in the order they are sent, least significant first (R155). -/
def dataBits (b : Byte) : List Bool := (List.range 8).map fun i => b.getLsbD i

/-- The exclusive or of the eight data bits (R156). -/
def xorBits (b : Byte) : Bool := (dataBits b).foldl Bool.xor false

/-- The parity bit for even (1) and odd (2) parity (R156). PRESUMED for the latched value 3, which `cfg_legal`
keeps out (R151): as odd (log 15). -/
def parityBit (parity : BitVec 2) (b : Byte) : Bool :=
  if parity = 1#2 then xorBits b else !(xorBits b)

/-- The bits of one character on `txd`, one a tick: start bit 0, data bits, parity bit if configured, stop bits
1 (R153, R159). -/
def charBits (parity : BitVec 2) (stop2 : Bool) (b : Byte) : List Bool :=
  [false] ++ dataBits b ++ (if parity = 0#2 then [] else [parityBit parity b]) ++
    (if stop2 then [true, true] else [true])

/-- The byte that eight data-bit samples carry, the first sample in bit 0 (R155, R158). -/
def byteOfSamples (d : List Bool) : Byte :=
  packByte (d.map BitVec.ofBool) 0

/-- Reception of one character (R158): `samples` are the samples taken once a tick after the start bit (data,
parity if configured, stop). `err` is set by a wrong parity bit or a first stop bit of 0; the second stop bit is
not checked (R157). A sample that is not given reads as the idle level 1 (R152; DESIGN CHOICE, log 14). -/
def sampledChar (parity : BitVec 2) (samples : List Bool) : Byte × Bool :=
  let b := byteOfSamples ((List.range 8).map fun i => samples.getD i true)
  if parity = 0#2 then (b, !(samples.getD 8 true))
  else (b, (samples.getD 8 true != parityBit parity b) || !(samples.getD 9 true))

end Sys2Proof.Machine
end

