-- ==== Sys2Proof/Machine/Ops.lean ====
section
/-! DEFINITION. The named operations over the Data Store, windows, buffers, receiver and transmitter, and the
server's protocol exception, response and record (20_memory.md, 42_frame_codec.md, 43_pdu_router.md,
47_server_fsm.md, 60_exceptions.md R403). -/

namespace Sys2Proof.Machine

/-- Run `f` on the state a first part answers with; a stop stays a stop. -/
def andThen (o : Host.Outcome State Fault Refusal) (f : State → Host.Outcome State Fault Refusal) :
    Host.Outcome State Fault Refusal :=
  match o with
  | .next s => f s
  | .fault r => .fault r
  | .refused r => .refused r

/-- Element `a` of a table, window or buffer; one that is not listed is 0 (R58; log 10). -/
def readCell {w : Nat} (c : Cells w) (a : Nat) : BitVec w :=
  match c with
  | [] => 0#w
  | (k, v) :: r => if k = a then v else readCell r a

/-- Store `v` in element `a`, keeping the canonical form. -/
def writeCell {w : Nat} (c : Cells w) (a : Nat) (v : BitVec w) : Cells w :=
  match c with
  | [] => if v = 0#w then [] else [(a, v)]
  | (k, x) :: r =>
    if a < k then (if v = 0#w then (k, x) :: r else (a, v) :: (k, x) :: r)
    else if a = k then (if v = 0#w then r else (a, v) :: r)
    else (k, x) :: writeCell r a v

/-- The `n` elements `a, a+1, ..., a+n-1`. -/
def readCells {w : Nat} (c : Cells w) (a n : Nat) : List (BitVec w) :=
  (List.range n).map fun i => readCell c (a + i)

/-- Store a sequence in the elements from `a` on. -/
def writeCells {w : Nat} (c : Cells w) (a : Nat) (vs : List (BitVec w)) : Cells w :=
  match vs with
  | [] => c
  | v :: r => writeCells (writeCell c a v) (a + 1) r

/-- The canonical form: indices strictly rising, no value that an unlisted index reads as. -/
def cellsWf {w : Nat} (c : Cells w) : Bool :=
  decide (c.Pairwise fun x y => x.1 < y.1) && c.all fun x => decide (x.2 ≠ 0#w)

/-- Every listed index is below `n`. -/
def cellsBelow {w : Nat} (c : Cells w) (n : Nat) : Bool := c.all fun x => decide (x.1 < n)

/-- The canonical form of the Data Store. -/
def Memory.wf (m : Memory) : Bool :=
  cellsWf m.coils && cellsWf m.di && cellsWf m.hr && cellsWf m.ir

/-- `N(t)` of a 1-bit table (R5, R20). -/
def bitSize (p : Params) (t : BitTable) : Nat :=
  match t with
  | .coils => p.nCoils
  | .di => p.nDi

/-- `N(t)` of a 16-bit table (R5, R20). -/
def regSize (p : Params) (t : RegTable) : Nat :=
  match t with
  | .hr => p.nHr
  | .ir => p.nIr

/-- The elements of a 1-bit table. -/
def bitCells (m : Memory) (t : BitTable) : Cells 1 :=
  match t with
  | .coils => m.coils
  | .di => m.di

/-- The elements of a 16-bit table. -/
def regCells (m : Memory) (t : RegTable) : Cells 16 :=
  match t with
  | .hr => m.hr
  | .ir => m.ir

/-- The Data Store with the elements of one 1-bit table replaced. -/
def withBitCells (m : Memory) (t : BitTable) (c : Cells 1) : Memory :=
  match t with
  | .coils => { m with coils := c }
  | .di => { m with di := c }

/-- The Data Store with the elements of one 16-bit table replaced. -/
def withRegCells (m : Memory) (t : RegTable) (c : Cells 16) : Memory :=
  match t with
  | .hr => { m with hr := c }
  | .ir => { m with ir := c }

/-- `MemRead(t, a, n)` for a 1-bit table (R70); outside the table it is not defined (log 20), nor for `n = 0`, where the
model answers the empty sequence (DESIGN CHOICE, log 21). -/
def memReadBits (p : Params) (m : Memory) (t : BitTable) (a n : Nat) : Except Fault (List (BitVec 1)) :=
  if a + n ≤ bitSize p t then .ok (readCells (bitCells m t) a n) else .error .tableRange

/-- `MemRead(t, a, n)` for a 16-bit table (R70); outside the table log 20, for `n = 0` the empty sequence (DESIGN CHOICE,
log 21). -/
def memReadRegs (p : Params) (m : Memory) (t : RegTable) (a n : Nat) : Except Fault (List Word) :=
  if a + n ≤ regSize p t then .ok (readCells (regCells m t) a n) else .error .tableRange

/-- `MemWrite(t, a, n, v)` for a 1-bit table, `n` the length of `v` (R71); outside the table log 20, for `n = 0` the
store is unchanged (DESIGN CHOICE, log 21). -/
def memWriteBits (p : Params) (m : Memory) (t : BitTable) (a : Nat) (vs : List (BitVec 1)) :
    Except Fault Memory :=
  if a + vs.length ≤ bitSize p t then .ok (withBitCells m t (writeCells (bitCells m t) a vs))
  else .error .tableRange

/-- `MemWrite(t, a, n, v)` for a 16-bit table, `n` the length of `v` (R71); outside the table log 20, for `n = 0` the
store is unchanged (DESIGN CHOICE, log 21). -/
def memWriteRegs (p : Params) (m : Memory) (t : RegTable) (a : Nat) (vs : List Word) : Except Fault Memory :=
  if a + vs.length ≤ regSize p t then .ok (withRegCells m t (writeCells (regCells m t) a vs))
  else .error .tableRange

/-- A response PDU, with the exception code if the router returned through `exc()`, else 0 (R220, R333). -/
structure Reply where
  fc : Byte
  payload : List Byte
  exc : Byte
deriving DecidableEq, Repr

/-- A function of the router: what it does to the Data Store and what it replies (R220). -/
abbrev PduFn := Params → Memory → Except Fault (Memory × Reply)

/-- `exc(fc, code)` (R228). -/
def excReply (fc : Byte) (code : ExcCode) : Reply where
  fc := excFc fc
  payload := [excByte code]
  exc := excByte code

/-- Raising a protocol exception (R403 steps 1 and 2): the function returns at the failed check, the Data Store
is as it was (R227). Steps 3 and 4 are those of every response, `addressed`; step 5 is `serverTxDone`. Nothing is
saved, and there is no other return (R403, R411). -/
def raiseException (fc : Byte) (code : ExcCode) (m : Memory) : Except Fault (Memory × Reply) :=
  .ok (m, excReply fc code)

/-- `supported(fc)` (R221). -/
def supported (p : Params) (fc : Byte) : Bool :=
  decide (fc = 0x01#8 ∨ fc = 0x03#8 ∨ fc = 0x05#8 ∨ fc = 0x06#8) ||
    (p.extFc && decide (fc = 0x02#8 ∨ fc = 0x04#8 ∨ fc = 0x0F#8 ∨ fc = 0x10#8))

/-- The first of the router's checks (R221 to R223): the function code is supported. -/
def routed (fc : Byte) (body : PduFn) : PduFn := fun p m =>
  if supported p fc then body p m else raiseException fc .illegalFunction m

/-- The router on a function code without a row in the map: `ILLEGAL_FUNCTION`, whatever the payload (R222). -/
def unsupportedPdu (fc : Byte) : PduFn := fun _ m => raiseException fc .illegalFunction m

/-- `rx_arm(s)` (R189). -/
def rxArm (st : RxState) (s : State) : State :=
  { s with
    rx := { s.rx with en := true, state := st, len := 0#9, overrun := false, charErr := false, gap := false } }

/-- Switch the receiver off (R57). -/
def rxOff (s : State) : State := { s with rx := { s.rx with en := false } }

/-- Place an encoded frame in `tx_buf[0 .. tx_len-1]` (R51, R182). -/
def loadTx (f : List Byte) (s : State) : State :=
  { s with tx := { s.tx with buf := writeCells s.tx.buf 0 f, len := BitVec.ofNat 9 f.length } }

/-- `tx_start()` (R183). -/
def txStart (s : State) : State :=
  rxOff { s with tx := { s.tx with idx := 0#9, active := true } }

/-- The server's record of a dispatched request, `SRVSTAT` and `EVT.SRVREQ` (R333, R335). -/
def recordRequest (fc exc : Byte) (bcast : Bool) (s : State) : State :=
  State.setEvt evtSrvreq
    { s with
      regs := { s.regs with
        srv := { s.regs.srv with lastFc := fc, lastExc := exc, lastBcast := bcast } } }

/-- Sending a response: the frame in `tx_buf`, `S_RESPOND`, `tx_start` (R333). -/
def sendResponse (rfc : Byte) (rp : List Byte) (s : State) : State :=
  txStart { loadTx (encodeFrame s.cfg.unit rfc rp) s with sstate := .respond }

/-- An addressed request (R333), a normal response and an exception response (R403 steps 3 and 4) alike. -/
def addressed (fc : Byte) (run : PduFn) (s : State) : Host.Outcome State Fault Refusal :=
  match run s.inst s.mem with
  | .error f => .fault f
  | .ok (m, r) => .next (sendResponse r.fc r.payload (recordRequest fc r.exc false { s with mem := m }))

/-- The functions a broadcast may carry (R335). -/
def isWriteFc (fc : Byte) : Bool :=
  decide (fc = 0x05#8 ∨ fc = 0x06#8 ∨ fc = 0x0F#8 ∨ fc = 0x10#8)

/-- A broadcast frame (R335): a supported write is applied and recorded, nothing is sent; anything else is
discarded. -/
def broadcast (fc : Byte) (run : PduFn) (s : State) : Host.Outcome State Fault Refusal :=
  if isWriteFc fc && supported s.inst fc then
    match run s.inst s.mem with
    | .error f => .fault f
    | .ok (m, r) => .next { recordRequest fc r.exc true { s with mem := m } with sstate := .listen }
  else .next { s with sstate := .listen }

/-- A frame ends and decodes in server role (R332, R334). -/
def serverFrame (addr fc : Byte) (run : PduFn) (s : State) : Host.Outcome State Fault Refusal :=
  if addr = s.cfg.unit then addressed fc run { s with sstate := .dispatch }
  else if addr = 0#8 ∧ s.cfg.bcastEn = true then broadcast fc run { s with sstate := .dispatch }
  else .next { s with sstate := .listen }

/-- A frame ends with a FrameError in server role (R331). -/
def serverFrameError (k : FrameError) (s : State) : State :=
  State.setEvt evtRxdrop
    { s with regs := { s.regs with srv := { s.regs.srv with lastFerr := some k } } }

/-- The end of a response (R336), which is also the end of an exception response (R403 step 5). -/
def serverTxDone (s : State) : State := rxArm .idle { s with sstate := .listen }

/-- The duration of an event in ticks (R10, R11, R192): an idle tick is one tick, a character `CB` ticks, host events
none; an event that cannot occur in a state takes none. -/
def eventTicks (e : Event) (s : State) : Nat :=
  match e with
  | .reset => 0
  | .rstRise => 0
  | .csrWrite _ _ => 0
  | .csrRead _ => 0
  | .idleTick => if s.rstN && s.isOpen && !s.tx.active then 1 else 0
  | .rxChar _ _ => if s.rstN && s.isOpen && !s.tx.active then s.cfg.cb.toNat else 0
  | .rxLine _ => if s.rstN && s.isOpen && !s.tx.active then s.cfg.cb.toNat else 0
  | .txChar => if s.rstN && s.isOpen && s.tx.active then s.cfg.cb.toNat else 0

end Sys2Proof.Machine
end

