-- ==== Sys2Proof/Machine/ClientEngine.lean ====
section
/-! DEFINITION. The client request-timeout state machine (46_client_fsm.md). -/

namespace Sys2Proof.Machine

/-- `req_valid(q)` (R295). -/
def reqValid (p : Params) (q : Request) : Bool :=
  supported p q.fc && (decide (q.unit ≠ 0#8) || isWriteFc q.fc) &&
    (if q.fc = 0x01#8 ∨ q.fc = 0x02#8 then decide (1 ≤ q.arg.toNat ∧ q.arg.toNat ≤ 2000)
    else if q.fc = 0x03#8 ∨ q.fc = 0x04#8 then decide (1 ≤ q.arg.toNat ∧ q.arg.toNat ≤ 125)
    else if q.fc = 0x05#8 then decide (q.arg = 0#16 ∨ q.arg = 1#16)
    else if q.fc = 0x0F#8 then decide (1 ≤ q.arg.toNat ∧ q.arg.toNat ≤ 1968)
    else if q.fc = 0x10#8 then decide (1 ≤ q.arg.toNat ∧ q.arg.toNat ≤ 123)
    else true)

/-- The first `n` bits of the client window: bit `k mod 16` of `WIN[k div 16]` (R52, R297). -/
def windowBits (win : Cells 16) (n : Nat) : List (BitVec 1) :=
  (List.range n).map fun k => (readCell win (k / 16)).extractLsb' (k % 16) 1

/-- The payload of `build_request(rq)`, whose function code is `rq.fc` (R297). DESIGN CHOICE: a function code that
`req_valid` refuses builds `S ++ A` (it cannot occur, R296; log 11). -/
def buildRequest (win : Cells 16) (q : Request) : List Byte :=
  if q.fc = 0x05#8 then
    [hi8 q.start, lo8 q.start] ++ (if q.arg = 1#16 then [0xFF#8, 0x00#8] else [0x00#8, 0x00#8])
  else if q.fc = 0x0F#8 then
    rangePayload q.start q.arg ++ countedPayload (pack (windowBits win q.arg.toNat))
  else if q.fc = 0x10#8 then
    rangePayload q.start q.arg ++ countedPayload (regBytes (readCells win 0 q.arg.toNat))
  else rangePayload q.start q.arg

/-- The resends made so far in an exchange (R299, R303). -/
def resends (c : Client) : Byte := c.retryBound - c.retryLeft

/-- Write `RESULT` and set `EVT.DONE` (R299, R303, R306). -/
def finish (r : Result) (s : State) : State :=
  State.setEvt evtDone { s with regs := { s.regs with result := r } }

/-- Move the client to a state (R290). -/
def setCState (c : CState) (s : State) : State := { s with client := { s.client with state := c } }

/-- `client_try_send()` (R298). -/
def clientTrySend (s : State) : State :=
  if s.client.state = .sending ∧ s.tx.active = false ∧ s.cfg.t35.toNat ≤ s.sil.toNat then txStart s else s

/-- `client_tx_done()` (R299). -/
def clientTxDone (s : State) : State :=
  if s.client.rq.unit = 0#8 then
    setCState .idle (finish ⟨.ok, none, 0#8, resends s.client⟩ s)
  else
    rxArm .idle { s with client := { s.client with state := .await, respElapsed := 0#32 } }

/-- `retry_or_fail(code, k)` (R306). -/
def retryOrFail (code : ResultCode) (k : Option FrameError) (s : State) : State :=
  if 0 < s.client.retryLeft.toNat then
    clientTrySend { s with client := { s.client with state := .sending, retryLeft := s.client.retryLeft - 1#8 } }
  else
    setCState .idle (finish ⟨code, k, 0#8, s.client.retryBound⟩ s)

/-- `timed_out()` (R304). -/
def timedOut (s : State) : State := retryOrFail .timeout none (rxOff (setCState .timedOut s))

/-- `crc_error(k)` (R305). -/
def crcError (k : FrameError) (s : State) : State :=
  retryOrFail .corruptedResponse (some k) (State.setEvt evtRxdrop (rxOff (setCState .crcErr s)))

/-- What a received frame is to the request (R302). -/
inductive FrameClass where
  | ignore
  | bad
  | normal
  | exception
deriving DecidableEq, Repr

/-- A class that depends on the payload's shape (R302). -/
def normalIf (b : Bool) : FrameClass := if b then .normal else .bad

/-- `classify(frame)` (R302). DESIGN CHOICE: a request whose function code R302 does not list is answered by no
normal frame: `BAD` (it cannot occur, R296; log 11). -/
def classify (q : Request) (txBuf : Cells 8) (fr : Frame) : FrameClass :=
  if fr.addr ≠ q.unit then .ignore
  else if fr.fc = excFc q.fc then (if fr.payload.length = 1 then .exception else .bad)
  else if fr.fc ≠ q.fc then .ignore
  else if q.fc = 0x01#8 ∨ q.fc = 0x02#8 then
    normalIf (decide (fr.payload.length = 1 + ceilDiv q.arg.toNat 8) &&
      decide ((fr.payload.getD 0 0#8).toNat = ceilDiv q.arg.toNat 8))
  else if q.fc = 0x03#8 ∨ q.fc = 0x04#8 then
    normalIf (decide (fr.payload.length = 1 + 2 * q.arg.toNat) &&
      decide ((fr.payload.getD 0 0#8).toNat = 2 * q.arg.toNat))
  else if q.fc = 0x05#8 ∨ q.fc = 0x06#8 ∨ q.fc = 0x0F#8 ∨ q.fc = 0x10#8 then
    normalIf (decide (fr.payload = readCells txBuf 2 4))
  else .bad

/-- The words a normal response stores in `WIN` (R303). -/
def storeResponse (q : Request) (p : List Byte) (win : Cells 16) : Cells 16 :=
  if q.fc = 0x01#8 ∨ q.fc = 0x02#8 then
    writeCells win 0
      ((List.range (ceilDiv q.arg.toNat 16)).map (windowWord (unpack (p.drop 1) q.arg.toNat)))
  else if q.fc = 0x03#8 ∨ q.fc = 0x04#8 then
    writeCells win 0 (bytesRegs (p.drop 1) q.arg.toNat)
  else win

/-- The `RESULT` of a matched frame (R303). -/
def matchedResult (q : Request) (c : Client) (fr : Frame) : Result :=
  if fr.fc = excFc q.fc then ⟨.protocolException, none, fr.payload.getD 0 0#8, resends c⟩
  else ⟨.ok, none, 0#8, resends c⟩

/-- The window after a matched frame (R303): unchanged by an exception response. -/
def matchedWin (q : Request) (fr : Frame) (win : Cells 16) : Cells 16 :=
  if fr.fc = excFc q.fc then win else storeResponse q fr.payload win

/-- `matched(frame)` (R303). -/
def matched (fr : Frame) (s : State) : State :=
  let s1 := rxOff (setCState .matched s)
  let s2 := { s1 with
    regs := { s1.regs with win := matchedWin s1.client.rq fr s1.regs.win } }
  setCState .idle (finish (matchedResult s2.client.rq s2.client fr) s2)

/-- `client_frame(r)` for a decoded frame (R301). -/
def clientFrame (fr : Frame) (s : State) : State :=
  match classify s.client.rq s.tx.buf fr with
  | .ignore => s
  | .bad => crcError .badPdu s
  | .normal => matched fr s
  | .exception => matched fr s

/-- The response timer's test, made at the end of every `RxChar` (R300, `client_after_char`) and of every `IdleTick`. -/
def clientAfterChar (s : State) : State :=
  if s.client.state = .await ∧ s.cfg.tmo.toNat ≤ s.client.respElapsed.toNat then timedOut s else s

/-- `client_tick()` (R300). -/
def clientTick (s : State) : State := clientTrySend (clientAfterChar s)

/-- The response timer advances by `n` ticks while the client awaits (R190, R191, R300). -/
def advanceTimer (n : BitVec 32) (s : State) : State :=
  if s.client.state = .await then
    { s with client := { s.client with respElapsed := s.client.respElapsed + n } }
  else s

/-- The receiver is on: only then does a frame reach an engine (R57, R192; DEDUCED, log 6). -/
def State.listening (s : State) : Bool := s.isOpen && s.rx.en

/-- A frame that ended and decoded is taken by the engine of the role (R109, R193): the server as a request, the client
as a response (DEDUCED, log 7). A frame that meets a receiver that is off is lost (log 6). -/
def acceptFrame (addr fc : Byte) (p : List Byte) (run : PduFn) (s : State) : Host.Outcome State Fault Refusal :=
  if s.listening then
    match s.cfg.role with
    | .server => serverFrame addr fc run s
    | .client => .next (clientFrame ⟨addr, fc, p⟩ s)
  else .next s

end Sys2Proof.Machine
end

