-- ==== Sys2Proof/Machine/Commands.lean ====
section
/-! DEFINITION. The host's instructions: the commands of `CTRL`, the CRC port and the event acknowledge
(48_host_interface.md R363 to R374, 46_client_fsm.md R296, 40_crc.md R137). -/

namespace Sys2Proof.Machine

/-- `CB` of the format that `LINE` holds (R160). -/
def lineTicks (line : BitVec 7) : Nat := charTicks (lineParity line) (lineStop2 line)

/-- `cfg_legal` (R151). -/
def cfgLegal (r : Regs) : Bool :=
  decide (r.baud ≠ 0#24) && decide (lineDbits r.line = 8#4) && decide (lineParity r.line ≠ 3#2) &&
    (decide (r.ift = 0#16) || decide (t15Of (lineTicks r.line) < r.ift.toNat)) &&
    (decide (modeRole r.mode = .client) || decide (r.unit ≠ 0#8)) &&
    (decide (modeRole r.mode = .server) || decide (r.timeoutMs ≠ 0#16))

/-- The configuration a successful `OPEN` latches (R42, R364). -/
def latchedCfg (r : Regs) : Cfg where
  baud := r.baud
  parity := lineParity r.line
  stop2 := lineStop2 r.line
  role := modeRole r.mode
  bcastEn := modeBcastEn r.mode
  unit := r.unit
  cb := BitVec.ofNat 4 (lineTicks r.line)
  t15 := BitVec.ofNat 5 (t15Of (lineTicks r.line))
  t35 := BitVec.ofNat 16 (t35Of r.ift.toNat (lineTicks r.line))
  tmo := BitVec.ofNat 32 (tmoOf r.timeoutMs.toNat r.baud.toNat)

/-- The receiver at the start of a session: armed in `RX_INIT` for a server, off for a client (R364). -/
def sessionRx (s : State) : State :=
  match s.cfg.role with
  | .server => rxArm .init s
  | .client => { s with rx := { s.rx with en := false, state := .init, len := 0#9 } }

/-- A successful `OPEN` (R364). -/
def opened (s : State) : State :=
  sessionRx
    { s with
      cfg := latchedCfg s.regs
      isOpen := true
      regs := { s.regs with tcause := .none }
      sil := 0#32
      tx := { s.tx with active := false, idx := 0#9 }
      client := { s.client with state := .idle }
      sstate := .listen }

/-- Record a TransportError (R408). -/
def transportError (c : TCause) (s : State) : State :=
  State.setEvt evtTerr { s with regs := { s.regs with tcause := c } }

/-- `OPEN` (R364). -/
def execOpen (s : State) : Host.Outcome State Fault Refusal :=
  if s.isOpen then .next (State.setEvt evtCmdrej s)
  else if cfgLegal s.regs then .next (opened s)
  else .next (transportError .badConfig s)

/-- The transmitter and receiver stop (R365). -/
def lineOff (s : State) : State :=
  { s with
    isOpen := false
    tx := { s.tx with active := false, idx := 0#9 }
    rx := { s.rx with en := false, state := .init, len := 0#9, overrun := false, charErr := false, gap := false } }

/-- The end of a client exchange in flight, with `TRANSPORT_ERROR` (R365). -/
def abortExchange (s : State) : State :=
  if s.client.state = .idle then s
  else transportError .closedInFlight (finish ⟨.transportError, none, 0#8, resends s.client⟩ s)

/-- `CLOSE` (R365). -/
def execClose (s : State) : Host.Outcome State Fault Refusal :=
  if s.isOpen then .next { setCState .idle (abortExchange (lineOff s)) with sstate := .listen }
  else .next s

/-- The request the host describes (R43, R44, R296). -/
def hostRequest (r : Regs) : Request where
  unit := r.req0.extractLsb' 0 8
  fc := r.req0.extractLsb' 8 8
  start := r.req1.extractLsb' 0 16
  arg := r.req1.extractLsb' 16 16

/-- An accepted `GO` (R296). -/
def startExchange (q : Request) (s : State) : State :=
  let s1 := loadTx (encodeFrame q.unit q.fc (buildRequest s.regs.win q)) s
  clientTrySend
    { s1 with
      client := { s1.client with state := .sending, rq := q, retryBound := s.regs.retry, retryLeft := s.regs.retry }
      regs := { s1.regs with result := ⟨.pending, none, 0#8, 0#8⟩ } }

/-- `GO` (R296). -/
def execGo (s : State) : Host.Outcome State Fault Refusal :=
  if s.isOpen = false then
    .next (transportError .notOpen (finish ⟨.transportError, none, 0#8, 0#8⟩ s))
  else if s.cfg.role = .server ∨ s.client.state ≠ .idle then .next (State.setEvt evtCmdrej s)
  else if reqValid s.inst (hostRequest s.regs) then .next (startExchange (hostRequest s.regs) s)
  else .next (State.setEvt evtCmdrej (finish ⟨.rejected, none, 0#8, 0#8⟩ s))

/-- Which table `DSCMD.TABLE` selects (R20, R46). -/
def dsBits (t : BitVec 2) : Option BitTable :=
  if t = 0#2 then some .coils else if t = 1#2 then some .di else none

/-- The 16-bit table `DSCMD.TABLE` selects when it selects no 1-bit table (R20, R46). -/
def dsRegs (t : BitVec 2) : RegTable := if t = 2#2 then .hr else .ir

/-- `N(t)` for `DSCMD.TABLE` (R370). -/
def dsSize (p : Params) (t : BitVec 2) : Nat :=
  match dsBits t with
  | some b => bitSize p b
  | none => regSize p (dsRegs t)

/-- The read of a `DSGO` whose range is legal, each element zero-extended (R370). -/
def dsRead (p : Params) (m : Memory) (t : BitVec 2) (a n : Nat) : Except Fault (List Word) :=
  match dsBits t with
  | some b =>
    match memReadBits p m b a n with
    | .error f => .error f
    | .ok v => .ok (v.map fun x => x.setWidth 16)
  | none => memReadRegs p m (dsRegs t) a n

/-- The write of a `DSGO` whose range is legal; a bit table takes bit 0 of each word (R370). -/
def dsWrite (p : Params) (m : Memory) (t : BitVec 2) (a : Nat) (vs : List Word) : Except Fault Memory :=
  match dsBits t with
  | some b => memWriteBits p m b a (vs.map fun x => x.extractLsb' 0 1)
  | none => memWriteRegs p m (dsRegs t) a vs

/-- The range check of `DSGO` (R370). -/
def dsLegal (p : Params) (r : Regs) : Bool :=
  decide (r.dsCount.toNat ≠ 0) && decide (r.dsCount.toNat ≤ Config.winWords) &&
    decide (r.dsStart.toNat + r.dsCount.toNat ≤ dsSize p r.dsTable)

/-- Set or clear `ds_err` (R30, R370). -/
def setDsErr (b : Bool) (s : State) : State := { s with regs := { s.regs with dsErr := b } }

/-- `DSGO` (R370). -/
def execDsgo (s : State) : Host.Outcome State Fault Refusal :=
  if dsLegal s.inst s.regs then
    if s.regs.dsWr then
      match dsWrite s.inst s.mem s.regs.dsTable s.regs.dsStart.toNat
          (readCells s.regs.dswin 0 s.regs.dsCount.toNat) with
      | .error f => .fault f
      | .ok m => .next (setDsErr false { s with mem := m })
    else
      match dsRead s.inst s.mem s.regs.dsTable s.regs.dsStart.toNat s.regs.dsCount.toNat with
      | .error f => .fault f
      | .ok v =>
        .next (setDsErr false { s with regs := { s.regs with dswin := writeCells s.regs.dswin 0 v } })
  else .next (setDsErr true s)

/-- `CRCINIT` (R131, R137). -/
def execCrcInit (s : State) : Host.Outcome State Fault Refusal :=
  .next { s with regs := { s.regs with hcrc := crcInitial } }

/-- A write of `CRC_DATA` (R132, R137). -/
def execCrcDataWrite (b : Byte) (s : State) : Host.Outcome State Fault Refusal :=
  .next { s with regs := { s.regs with hcrc := crcUpdate s.regs.hcrc b } }

/-- A write of `EVT`, write-1-to-clear (R374). -/
def execEvtClear (mask : BitVec 5) (s : State) : Host.Outcome State Fault Refusal :=
  .next { s with regs := { s.regs with evt := s.regs.evt &&& ~~~mask } }

end Sys2Proof.Machine
end

