-- ==== Sys2Proof/Machine/ExceptionFrame.lean ====
section
/-! DEFINITION. A frame whose function code has bit 7 set (30_encoding.md R99, R106, R120; 43_pdu_router.md R228;
46_client_fsm.md R301 to R303). -/

namespace Sys2Proof.Machine

/-- `EXCEPTION`. The client takes the frame as the exception response to its request, when it matches (R301 to R303).
The server takes it as a request with an unsupported function code (R120) and answers it with `exc(fc, 0x01)`
(R228), the same function code and the code `ILLEGAL_FUNCTION`. -/
def execException (addr : Byte) (fc7 : BitVec 7) (payload : List Byte) (s : State) :
    Host.Outcome State Fault Refusal :=
  acceptFrame addr (highFc fc7) payload (routed (highFc fc7) (unsupportedPdu (highFc fc7))) s

end Sys2Proof.Machine
end

