-- ==== Sys2Proof/Machine/Reads.lean ====
section
/-! DEFINITION. The read functions 0x01 to 0x04 (44_pdu_reads.md). -/

namespace Sys2Proof.Machine

/-- `read_bits(fc, t, N, p)` (R240). -/
def readBits (fc : Byte) (t : BitTable) (q : PairReq) : PduFn := fun p m =>
  match q with
  | .malformed _ => raiseException fc .illegalDataValue m
  | .pair start qty =>
    if qty.toNat = 0 ∨ 2000 < qty.toNat then raiseException fc .illegalDataValue m
    else if bitSize p t < start.toNat + qty.toNat then raiseException fc .illegalDataAddress m
    else
      match memReadBits p m t start.toNat qty.toNat with
      | .error f => .error f
      | .ok b => .ok (m, ⟨fc, countedPayload (pack b), 0#8⟩)

/-- `read_regs(fc, t, N, p)` (R240). -/
def readRegs (fc : Byte) (t : RegTable) (q : PairReq) : PduFn := fun p m =>
  match q with
  | .malformed _ => raiseException fc .illegalDataValue m
  | .pair start qty =>
    if qty.toNat = 0 ∨ 125 < qty.toNat then raiseException fc .illegalDataValue m
    else if regSize p t < start.toNat + qty.toNat then raiseException fc .illegalDataAddress m
    else
      match memReadRegs p m t start.toNat qty.toNat with
      | .error f => .error f
      | .ok v => .ok (m, ⟨fc, countedPayload (regBytes v), 0#8⟩)

/-- `READ_COILS` (R241). -/
def execReadCoils (addr : Byte) (q : PairReq) (s : State) : Host.Outcome State Fault Refusal :=
  acceptFrame addr 0x01#8 (pairPayload q) (routed 0x01#8 (readBits 0x01#8 .coils q)) s

/-- `READ_DISCRETE_INPUTS` (R242). -/
def execReadDiscreteInputs (addr : Byte) (q : PairReq) (s : State) : Host.Outcome State Fault Refusal :=
  acceptFrame addr 0x02#8 (pairPayload q) (routed 0x02#8 (readBits 0x02#8 .di q)) s

/-- `READ_HOLDING_REGISTERS` (R243). -/
def execReadHoldingRegisters (addr : Byte) (q : PairReq) (s : State) : Host.Outcome State Fault Refusal :=
  acceptFrame addr 0x03#8 (pairPayload q) (routed 0x03#8 (readRegs 0x03#8 .hr q)) s

/-- `READ_INPUT_REGISTERS` (R244). -/
def execReadInputRegisters (addr : Byte) (q : PairReq) (s : State) : Host.Outcome State Fault Refusal :=
  acceptFrame addr 0x04#8 (pairPayload q) (routed 0x04#8 (readRegs 0x04#8 .ir q)) s

end Sys2Proof.Machine
end

