-- ==== Sys2Proof/Machine/Writes.lean ====
section
/-! DEFINITION. The write functions 0x05, 0x06, 0x0F, 0x10 (45_pdu_writes.md). -/

namespace Sys2Proof.Machine

/-- The coil value field 0xFF00 (R102). -/
def coilOn : Word := 0xFF00#16

/-- The coil value field 0x0000 (R102). -/
def coilOff : Word := 0x0000#16

/-- `write_single_coil(p)` (R261). -/
def writeSingleCoil (q : PairReq) : PduFn := fun p m =>
  match q with
  | .malformed _ => raiseException 0x05#8 .illegalDataValue m
  | .pair address value =>
    if value ≠ coilOn ∧ value ≠ coilOff then raiseException 0x05#8 .illegalDataValue m
    else if p.nCoils ≤ address.toNat then raiseException 0x05#8 .illegalDataAddress m
    else
      match memWriteBits p m .coils address.toNat [if value = coilOn then 1#1 else 0#1] with
      | .error f => .error f
      | .ok m' => .ok (m', ⟨0x05#8, rangePayload address value, 0#8⟩)

/-- `write_single_register(p)` (R262). -/
def writeSingleRegister (q : PairReq) : PduFn := fun p m =>
  match q with
  | .malformed _ => raiseException 0x06#8 .illegalDataValue m
  | .pair address value =>
    if p.nHr ≤ address.toNat then raiseException 0x06#8 .illegalDataAddress m
    else
      match memWriteRegs p m .hr address.toNat [value] with
      | .error f => .error f
      | .ok m' => .ok (m', ⟨0x06#8, rangePayload address value, 0#8⟩)

/-- `write_multiple_coils(p)` (R263). -/
def writeMultipleCoils (q : MultiReq) : PduFn := fun p m =>
  match q with
  | .short _ => raiseException 0x0F#8 .illegalDataValue m
  | .multi start qty bc data =>
    if qty.toNat = 0 ∨ 1968 < qty.toNat then raiseException 0x0F#8 .illegalDataValue m
    else if bc.toNat ≠ ceilDiv qty.toNat 8 ∨ data.length ≠ bc.toNat then
      raiseException 0x0F#8 .illegalDataValue m
    else if p.nCoils < start.toNat + qty.toNat then raiseException 0x0F#8 .illegalDataAddress m
    else
      match memWriteBits p m .coils start.toNat (unpack data qty.toNat) with
      | .error f => .error f
      | .ok m' => .ok (m', ⟨0x0F#8, rangePayload start qty, 0#8⟩)

/-- `write_multiple_registers(p)` (R264). -/
def writeMultipleRegisters (q : MultiReq) : PduFn := fun p m =>
  match q with
  | .short _ => raiseException 0x10#8 .illegalDataValue m
  | .multi start qty bc data =>
    if qty.toNat = 0 ∨ 123 < qty.toNat then raiseException 0x10#8 .illegalDataValue m
    else if bc.toNat ≠ 2 * qty.toNat ∨ data.length ≠ bc.toNat then
      raiseException 0x10#8 .illegalDataValue m
    else if p.nHr < start.toNat + qty.toNat then raiseException 0x10#8 .illegalDataAddress m
    else
      match memWriteRegs p m .hr start.toNat (bytesRegs data qty.toNat) with
      | .error f => .error f
      | .ok m' => .ok (m', ⟨0x10#8, rangePayload start qty, 0#8⟩)

/-- `WRITE_SINGLE_COIL` (R261). -/
def execWriteSingleCoil (addr : Byte) (q : PairReq) (s : State) : Host.Outcome State Fault Refusal :=
  acceptFrame addr 0x05#8 (pairPayload q) (routed 0x05#8 (writeSingleCoil q)) s

/-- `WRITE_SINGLE_REGISTER` (R262). -/
def execWriteSingleRegister (addr : Byte) (q : PairReq) (s : State) : Host.Outcome State Fault Refusal :=
  acceptFrame addr 0x06#8 (pairPayload q) (routed 0x06#8 (writeSingleRegister q)) s

/-- `WRITE_MULTIPLE_COILS` (R263). -/
def execWriteMultipleCoils (addr : Byte) (q : MultiReq) (s : State) : Host.Outcome State Fault Refusal :=
  acceptFrame addr 0x0F#8 (multiPayload q) (routed 0x0F#8 (writeMultipleCoils q)) s

/-- `WRITE_MULTIPLE_REGISTERS` (R264). -/
def execWriteMultipleRegisters (addr : Byte) (q : MultiReq) (s : State) : Host.Outcome State Fault Refusal :=
  acceptFrame addr 0x10#8 (multiPayload q) (routed 0x10#8 (writeMultipleRegisters q)) s

end Sys2Proof.Machine
end

