-- ==== Sys2Proof/Machine/Dispatch.lean ====
section
/-! DEFINITION. The meaning of every instruction, one arm each. -/

namespace Sys2Proof.Machine

def exec (i : Instr) (s : State) : Host.Outcome State Fault Refusal :=
  match i with
  | .readCoils addr q => Sys2Proof.Machine.execReadCoils addr q s
  | .readDiscreteInputs addr q => Sys2Proof.Machine.execReadDiscreteInputs addr q s
  | .readHoldingRegisters addr q => Sys2Proof.Machine.execReadHoldingRegisters addr q s
  | .readInputRegisters addr q => Sys2Proof.Machine.execReadInputRegisters addr q s
  | .writeSingleCoil addr q => Sys2Proof.Machine.execWriteSingleCoil addr q s
  | .writeSingleRegister addr q => Sys2Proof.Machine.execWriteSingleRegister addr q s
  | .writeMultipleCoils addr q => Sys2Proof.Machine.execWriteMultipleCoils addr q s
  | .writeMultipleRegisters addr q => Sys2Proof.Machine.execWriteMultipleRegisters addr q s
  | .exception addr fc7 payload => Sys2Proof.Machine.execException addr fc7 payload s
  | .openCmd => Sys2Proof.Machine.execOpen s
  | .closeCmd => Sys2Proof.Machine.execClose s
  | .goCmd => Sys2Proof.Machine.execGo s
  | .dsgoCmd => Sys2Proof.Machine.execDsgo s
  | .crcInit => Sys2Proof.Machine.execCrcInit s
  | .crcDataWrite b => Sys2Proof.Machine.execCrcDataWrite b s
  | .evtClear mask => Sys2Proof.Machine.execEvtClear mask s

end Sys2Proof.Machine
end

