-- ==== Sys2Proof/Machine/LineEvents.lean ====
section
/-! DEFINITION. The line events of the step model: `IdleTick`, `RxChar`, `TxChar`, the silence detector and the end of
a frame (42_frame_codec.md R186 to R193). -/

namespace Sys2Proof.Machine

/-- A line event other than `TxChar` can occur: open and not transmitting (R11, R190, R191). -/
def State.lineFree (s : State) : Bool := s.isOpen && !s.tx.active

/-- A `TxChar` can occur: open and transmitting (R186). -/
def State.transmitting (s : State) : Bool := s.isOpen && s.tx.active

/-- `min(sil + 1, SIL_SAT)` (R190). -/
def silNext (sil : BitVec 32) : BitVec 32 :=
  if sil.toNat < Config.silSat then sil + 1#32 else sil

/-- The bytes of the frame received so far (R50). -/
def rxFrame (s : State) : List Byte := readCells s.rx.buf 0 s.rx.len.toNat

/-- Move the receiver to a state (R27). -/
def setRxState (r : RxState) (s : State) : State := { s with rx := { s.rx with state := r } }

/-- `frame_end()` (R193): the frame is decoded (R195) and its instruction executed by the engine of the role; a frame
without a row in the function-code map goes to the same engine (R119, R222; log 8). -/
def frameEnd (s : State) : Host.Outcome State Fault Refusal :=
  match decodeFrame s.rx.overrun s.rx.charErr s.rx.gap (rxFrame s) with
  | .error k =>
    match s.cfg.role with
    | .server => .next (serverFrameError k (setRxState .idle s))
    | .client => .next (crcError k (setRxState .idle s))
  | .ok fr =>
    match decodePdu fr.addr fr.fc fr.payload with
    | .ok i => exec i (setRxState .idle s)
    | .error _ => acceptFrame fr.addr fr.fc fr.payload (routed fr.fc (unsupportedPdu fr.fc)) (setRxState .idle s)

/-- The receiver's part of an `IdleTick` (R190). -/
def idleReceiver (s : State) : Host.Outcome State Fault Refusal :=
  if s.rx.en then
    match s.rx.state with
    | .init => .next (if s.cfg.t35.toNat ≤ s.sil.toNat then setRxState .idle s else s)
    | .idle => .next s
    | .recv => .next (if s.cfg.t15.toNat ≤ s.sil.toNat then setRxState .ctrlWait s else s)
    | .ctrlWait => if s.cfg.t35.toNat ≤ s.sil.toNat then frameEnd s else .next s
  else .next s

/-- The counters' part of an `IdleTick` (R190). -/
def idleCounters (s : State) : State := advanceTimer 1#32 { s with sil := silNext s.sil }

/-- `IdleTick` (R190): counters, receiver, client, in this order. When it cannot occur it changes nothing (R192; log
9). -/
def idleTick (s : State) : Host.Outcome State Fault Refusal :=
  if s.lineFree then andThen (idleReceiver (idleCounters s)) fun t => .next (clientTick t)
  else .next s

/-- `store(b, err)` (R191). -/
def storeChar (b : Byte) (err : Bool) (r : Rx) : Rx :=
  if r.len.toNat < Config.maxFrame then
    { r with charErr := r.charErr || err, buf := writeCell r.buf r.len.toNat b, len := r.len + 1#9 }
  else { r with charErr := r.charErr || err, overrun := true }

/-- The receiver's part of a `RxChar` (R191). -/
def rxTake (b : Byte) (err : Bool) (r : Rx) : Rx :=
  if r.en then
    match r.state with
    | .init => r
    | .idle =>
      { storeChar b err { r with len := 0#9, overrun := false, charErr := false, gap := false } with state := .recv }
    | .recv => storeChar b err r
    | .ctrlWait => { storeChar b err { r with gap := true } with state := .recv }
  else r

/-- `RxChar(b, err)` (R191). When it cannot occur it changes nothing: characters that arrive while the block sends are
lost (R165, R192; log 9). -/
def rxChar (b : Byte) (err : Bool) (s : State) : Host.Outcome State Fault Refusal :=
  if s.lineFree then
    let s1 := advanceTimer (s.cfg.cb.setWidth 32) s
    .next (clientAfterChar { s1 with rx := rxTake b err s1.rx, sil := 0#32 })
  else .next s

/-- A character given by its samples (R158). -/
def rxLine (samples : List Bool) (s : State) : Host.Outcome State Fault Refusal :=
  rxChar (sampledChar s.cfg.parity samples).1 (sampledChar s.cfg.parity samples).2 s

/-- The byte the transmitter sends next (R186). -/
def txByte (s : State) : Byte := readCell s.tx.buf s.tx.idx.toNat

/-- The end of a transmission, by role (R186). -/
def txDone (s : State) : State :=
  match s.cfg.role with
  | .server => serverTxDone s
  | .client => clientTxDone s

/-- `TxChar` (R186). -/
def txChar (s : State) : Host.Outcome State Fault Refusal :=
  if s.transmitting then
    let s1 := { s with
      out := .txChar (txByte s) (charBits s.cfg.parity s.cfg.stop2 (txByte s))
      tx := { s.tx with idx := s.tx.idx + 1#9 }
      sil := 0#32 }
    if s1.tx.idx = s1.tx.len then .next (txDone { s1 with tx := { s1.tx with active := false } })
    else .next s1
  else .next s

end Sys2Proof.Machine
end

