-- ==== Sys2Proof/Machine/HostEvents.lean ====
section
/-! DEFINITION. The host's events `CsrWrite` and `CsrRead`, the reset input, and the choice of the event a step
handles (48_host_interface.md R361 to R363, 70_reset_and_hazards.md R440, 00_scope.md R10). -/

namespace Sys2Proof.Machine

/-- The instructions of one host write, one after another inside the one step (R363). -/
def execAll (l : List Instr) (s : State) : Host.Outcome State Fault Refusal :=
  match l with
  | [] => .next s
  | i :: r => andThen (exec i s) (execAll r)

/-- The register numbers of `WIN[i]` are 0x100 + i (R31). -/
def isWin (n : Nat) : Bool := decide (0x100 ≤ n) && decide (n < 0x100 + Config.winWords)

/-- The register numbers of `DSWIN[i]` are 0x200 + i (R31). -/
def isDswin (n : Nat) : Bool := decide (0x200 ≤ n) && decide (n < 0x200 + Config.winWords)

/-- A host write to a register that holds no instruction (R361): the stored fields of RW registers; read-only
registers, reserved bits and reserved numbers take nothing (R49). -/
def writeReg (n : Nat) (v : Reg) (r : Regs) : Regs :=
  match n with
  | 0x03 => { r with ien := v.extractLsb' 0 5 }
  | 0x04 => { r with baud := v.extractLsb' 0 24 }
  | 0x05 => { r with line := v.extractLsb' 0 7 }
  | 0x06 => { r with timeoutMs := v.extractLsb' 0 16 }
  | 0x07 => { r with ift := v.extractLsb' 0 16 }
  | 0x08 => { r with mode := v.extractLsb' 0 2 }
  | 0x09 => { r with unit := v.extractLsb' 0 8 }
  | 0x0A => { r with retry := v.extractLsb' 0 8 }
  | 0x0B => { r with req0 := v.extractLsb' 0 16 }
  | 0x0C => { r with req1 := v }
  | 0x0E => { r with dsTable := v.extractLsb' 0 2, dsWr := v.getLsbD 2, dsStart := v.extractLsb' 16 16 }
  | 0x0F => { r with dsCount := v.extractLsb' 0 8 }
  | n =>
    if isWin n then { r with win := writeCell r.win (n - 0x100) (v.extractLsb' 0 16) }
    else if isDswin n then { r with dswin := writeCell r.dswin (n - 0x200) (v.extractLsb' 0 16) }
    else r

/-- `CsrRead(n)` (R362). -/
def readReg (n : Nat) (s : State) : Reg :=
  match n with
  | 0x01 => statusReg s
  | 0x02 => s.regs.evt.setWidth 32
  | 0x03 => s.regs.ien.setWidth 32
  | 0x04 => s.regs.baud.setWidth 32
  | 0x05 => s.regs.line.setWidth 32
  | 0x06 => s.regs.timeoutMs.setWidth 32
  | 0x07 => s.regs.ift.setWidth 32
  | 0x08 => s.regs.mode.setWidth 32
  | 0x09 => s.regs.unit.setWidth 32
  | 0x0A => s.regs.retry.setWidth 32
  | 0x0B => s.regs.req0.setWidth 32
  | 0x0C => s.regs.req1
  | 0x0D => resultReg s.regs.result
  | 0x0E => dscmdReg s.regs
  | 0x0F => s.regs.dsCount.setWidth 32
  | 0x10 => bitReg s.regs.dsErr
  | 0x12 => s.regs.hcrc.setWidth 32
  | 0x13 => srvstatReg s.regs.srv
  | n =>
    if isWin n then (readCell s.regs.win (n - 0x100)).setWidth 32
    else if isDswin n then (readCell s.regs.dswin (n - 0x200)).setWidth 32
    else 0#32

/-- `CsrWrite(n, v)` (R361). -/
def csrWrite (n : Nat) (v : Reg) (s : State) : Host.Outcome State Fault Refusal :=
  match decodeCsr n v with
  | .ok l => execAll l s
  | .error _ => .next { s with regs := writeReg n v s.regs }

/-- `Reset` (R440): every item of state takes its reset value; the instance and the events still to come are not
state of the block (R59); `rst_n` is low from now on (log 5). -/
def doReset (s : State) : State :=
  { State.resetOf s.inst with rstN := false, inputs := s.inputs }

/-- What one event does (R10). While `rst_n` is held low every event but its rise is ignored (R440). -/
def handle (e : Event) (s : State) : Host.Outcome State Fault Refusal :=
  match e with
  | .reset => .next (doReset s)
  | .rstRise => .next { s with rstN := true }
  | .csrWrite n v => if s.rstN then csrWrite n v s else .next s
  | .csrRead n => if s.rstN then .next { s with out := .readData (readReg n s) } else .next s
  | .idleTick => if s.rstN then idleTick s else .next s
  | .rxChar b err => if s.rstN then rxChar b err s else .next s
  | .rxLine samples => if s.rstN then rxLine samples s else .next s
  | .txChar => if s.rstN then txChar s else .next s

/-- The state as the next event finds it: that event taken off the list, nothing put out yet (logs 1, 2). -/
def State.taken (rest : List Event) (s : State) : State := { s with inputs := rest, out := .nothing }

/-- One step: the next event of the list; with none, the block's own `TxChar`, which changes nothing when it is not
enabled (R10, R186; DESIGN CHOICE, log 1). -/
def nextEvent (s : State) : Host.Outcome State Fault Refusal :=
  match s.inputs with
  | [] => handle .txChar (s.taken [])
  | e :: rest => handle e (s.taken rest)

/-- The session in which a frame to unit 1 is about to end: open as a server at unit 1 with 8 data bits, no parity, one
stop bit, the receiver armed, the frame in `rx_buf`, one tick of silence missing (R190, R193; log 12). -/
def awaitingEnd (f : List Byte) (s : State) : State :=
  { s with
    rstN := true
    isOpen := true
    cfg := { s.cfg with role := .server, unit := 0x01#8, cb := 10#4, t15 := 15#5, t35 := 35#16 }
    rx := {
      state := .ctrlWait
      en := true
      buf := writeCells [] 0 f
      len := BitVec.ofNat 9 f.length
      overrun := false
      charErr := false
      gap := false }
    tx := { s.tx with active := false }
    sil := 34#32
    inputs := .idleTick :: s.inputs }

/-- The state whose next step takes the given transfer: a host write is the next event; a frame ends with the next idle
tick (log 12). -/
def withCode (c : Code) (s : State) : State :=
  match c with
  | .frame f => awaitingEnd f s
  | .csrWrite n v => { s with rstN := true, inputs := .csrWrite n v :: s.inputs }

end Sys2Proof.Machine
end

