-- ==== Sys2Proof/Machine/Step.lean ====
section
/-! DEFINITION. One step of the machine, and a state that is about to run a given opcode-table word. -/

namespace Sys2Proof.Machine

/-- One step: one event of the step model, handled to completion (00_scope.md R10). -/
def step (s : State) : Host.Outcome State Fault Refusal := nextEvent s

/-- `s` with the instruction of an opcode-table word where the next step takes it (log 12). -/
def State.withFetchWord (s : State) (nbits w : Nat) : State := withCode (tableCode nbits w) s

end Sys2Proof.Machine
end

