-- ==== Sys2Proof/Safety.lean ====
section
/-! DEFINITION. The terms claims use: what a safe run is, the invariant of the block, a session that serves a
frame, and what an answered request leaves. -/

namespace Sys2Proof.Machine

/-- The `k` steps from a state end without a fault or a refusal, in a state with the given property. -/
def runsTo (k : Nat) (s : State) (goal : State → Prop) : Prop :=
  ∃ t, Sys2Proof.core.run k s = .next t ∧ goal t

/-- The events of the serial line (00_scope.md R10). -/
def isLineEvent (e : Event) : Bool :=
  match e with
  | .reset => false
  | .rstRise => false
  | .csrWrite _ _ => false
  | .csrRead _ => false
  | .idleTick => true
  | .rxChar _ _ => true
  | .rxLine _ => true
  | .txChar => true

/-- The instructions that are frames on the line (30_encoding.md R107). -/
def isFrameInstr (i : Instr) : Bool :=
  match i with
  | .readCoils _ _ => true
  | .readDiscreteInputs _ _ => true
  | .readHoldingRegisters _ _ => true
  | .readInputRegisters _ _ => true
  | .writeSingleCoil _ _ => true
  | .writeSingleRegister _ _ => true
  | .writeMultipleCoils _ _ => true
  | .writeMultipleRegisters _ _ => true
  | .exception _ _ _ => true
  | .openCmd => false
  | .closeCmd => false
  | .goCmd => false
  | .dsgoCmd => false
  | .crcInit => false
  | .crcDataWrite _ => false
  | .evtClear _ => false

/-- The frame a frame instruction stands for: address, function code, payload (30_encoding.md R90); none for a host
instruction. -/
def frameOf (i : Instr) : Option Frame :=
  match i with
  | .readCoils a q => some ⟨a, 0x01#8, pairPayload q⟩
  | .readDiscreteInputs a q => some ⟨a, 0x02#8, pairPayload q⟩
  | .readHoldingRegisters a q => some ⟨a, 0x03#8, pairPayload q⟩
  | .readInputRegisters a q => some ⟨a, 0x04#8, pairPayload q⟩
  | .writeSingleCoil a q => some ⟨a, 0x05#8, pairPayload q⟩
  | .writeSingleRegister a q => some ⟨a, 0x06#8, pairPayload q⟩
  | .writeMultipleCoils a q => some ⟨a, 0x0F#8, multiPayload q⟩
  | .writeMultipleRegisters a q => some ⟨a, 0x10#8, multiPayload q⟩
  | .exception a fc7 p => some ⟨a, highFc fc7, p⟩
  | .openCmd => none
  | .closeCmd => none
  | .goCmd => none
  | .dsgoCmd => none
  | .crcInit => none
  | .crcDataWrite _ => none
  | .evtClear _ => none

/-- Every table, window and buffer has the canonical form (log 10). -/
abbrev Canonical (s : State) : Prop :=
  s.mem.wf = true ∧ cellsWf s.regs.win = true ∧ cellsWf s.regs.dswin = true ∧
    cellsWf s.rx.buf = true ∧ cellsWf s.tx.buf = true

/-- The block is a listening server and `addr` is its own address. -/
abbrev Serving (addr : Byte) (s : State) : Prop :=
  s.isOpen = true ∧ s.rx.en = true ∧ s.cfg.role = .server ∧ addr = s.cfg.unit

/-- The block is a listening server and takes a frame to address 0 as a broadcast (47_server_fsm.md R332, R335). -/
abbrev ServingBroadcast (s : State) : Prop :=
  s.isOpen = true ∧ s.rx.en = true ∧ s.cfg.role = .server ∧ s.cfg.unit ≠ 0#8 ∧ s.cfg.bcastEn = true

/-- The block is a client that waits for the answer to `s.client.rq` (46_client_fsm.md R300). -/
abbrev Awaiting (s : State) : Prop :=
  s.isOpen = true ∧ s.rx.en = true ∧ s.cfg.role = .client ∧ s.client.state = .await

/-- The frame waiting in `tx_buf` is `f`, and the buffer beyond it is as it was in `s`. -/
abbrev TxHolds (f : List Byte) (s t : State) : Prop :=
  t.tx.len.toNat = f.length ∧ readCells t.tx.buf 0 f.length = f ∧
    ∀ a, f.length ≤ a → readCell t.tx.buf a = readCell s.tx.buf a

/-- From `s` to `t` a request with function code `fc` was answered with the PDU `rfc`, `rp` (47_server_fsm.md R333):
the record, the response frame in `tx_buf`, the transmission started, and everything but the Data Store, `SRVSTAT`,
`EVT.SRVREQ`, the transmitter, `rx_en` and `sstate` unchanged. -/
abbrev Answered (fc rfc : Byte) (rp : List Byte) (exc : Byte) (s t : State) : Prop :=
  t.regs = { s.regs with
    evt := s.regs.evt ||| 0x02#5
    srv := { s.regs.srv with lastFc := fc, lastExc := exc, lastBcast := false } } ∧
  t.sstate = .respond ∧ t.tx.active = true ∧ t.tx.idx = 0#9 ∧ TxHolds (encodeFrame s.cfg.unit rfc rp) s t ∧
  t.rx = { s.rx with en := false } ∧ t.cfg = s.cfg ∧ t.isOpen = s.isOpen ∧ t.client = s.client ∧
  t.sil = s.sil ∧ t.rstN = s.rstN ∧ t.inst = s.inst ∧ t.inputs = s.inputs ∧ t.out = s.out

/-- The request was answered with an exception response and no table element changed (60_exceptions.md R403). -/
abbrev AnsweredException (fc : Byte) (code : Byte) (s t : State) : Prop :=
  Answered fc (fc ||| 0x80#8) [code] code s t ∧ t.mem = s.mem

/-- Only elements of `coils` from `a` to `a + n - 1` may differ. -/
abbrev OnlyCoils (a n : Nat) (m m' : Memory) : Prop :=
  m'.di = m.di ∧ m'.hr = m.hr ∧ m'.ir = m.ir ∧
    ∀ k, k < a ∨ a + n ≤ k → readCell m'.coils k = readCell m.coils k

/-- Only elements of `hr` from `a` to `a + n - 1` may differ. -/
abbrev OnlyHolding (a n : Nat) (m m' : Memory) : Prop :=
  m'.coils = m.coils ∧ m'.di = m.di ∧ m'.ir = m.ir ∧
    ∀ k, k < a ∨ a + n ≤ k → readCell m'.hr k = readCell m.hr k

/-- The indices listed lie inside the tables, windows and buffers (10_state.md R20, R50 to R53). -/
abbrev InBounds (s : State) : Prop :=
  cellsBelow s.mem.coils s.inst.nCoils = true ∧ cellsBelow s.mem.di s.inst.nDi = true ∧
    cellsBelow s.mem.hr s.inst.nHr = true ∧ cellsBelow s.mem.ir s.inst.nIr = true ∧
    cellsBelow s.regs.win 125 = true ∧ cellsBelow s.regs.dswin 125 = true ∧
    cellsBelow s.rx.buf 256 = true ∧ cellsBelow s.tx.buf 256 = true

/-- The latched configuration of an open block (41_uart.md R151, R160 to R163). -/
abbrev CfgInv (s : State) : Prop :=
  s.isOpen = true →
    s.cfg.baud ≠ 0#24 ∧ s.cfg.parity ≠ 3#2 ∧
    s.cfg.cb.toNat = charTicks s.cfg.parity s.cfg.stop2 ∧ s.cfg.t15.toNat = t15Of s.cfg.cb.toNat ∧
    s.cfg.t15.toNat < s.cfg.t35.toNat ∧ (s.cfg.role = .server → s.cfg.unit ≠ 0#8) ∧
    (s.cfg.role = .client → 1 ≤ s.cfg.tmo.toNat) ∧ s.cfg.tmo.toNat ≤ 1099494786

/-- What the sequencing states allow together (10_state.md R25 to R27, R32, R57; 46_client_fsm.md R291;
47_server_fsm.md R337). -/
abbrev SequenceInv (s : State) : Prop :=
  (s.client.state = .idle ∨ s.client.state = .sending ∨ s.client.state = .await) ∧
  (s.sstate = .listen ∨ s.sstate = .respond) ∧
  (s.isOpen = false → s.client.state = .idle ∧ s.sstate = .listen ∧ s.tx.active = false) ∧
  (s.cfg.role = .server → s.client.state = .idle) ∧
  (s.cfg.role = .client → s.sstate = .listen) ∧
  (s.sstate = .respond → s.tx.active = true) ∧
  (s.tx.active = true → s.client.state = .sending ∨ s.sstate = .respond) ∧
  (s.rx.en = true ↔ s.isOpen = true ∧
    ((s.cfg.role = .client ∧ s.client.state = .await) ∨ (s.cfg.role = .server ∧ s.sstate = .listen)))

/-- The transmitter holds a whole frame (10_state.md R51, 42_frame_codec.md R183, R186). -/
abbrev TxInv (s : State) : Prop :=
  (s.tx.active = true → s.tx.idx.toNat < s.tx.len.toNat) ∧
  (s.tx.active = true ∨ s.client.state ≠ .idle → 4 ≤ s.tx.len.toNat ∧ s.tx.len.toNat ≤ 255)

/-- The receiver state tells how long the line has been silent (10_state.md R27, 42_frame_codec.md R190, R191). -/
abbrev RxInv (s : State) : Prop :=
  s.rx.len.toNat ≤ 256 ∧
  (s.rx.en = true →
    (s.rx.state = .init → s.sil.toNat < s.cfg.t35.toNat) ∧
    (s.rx.state = .recv → s.sil.toNat < s.cfg.t15.toNat) ∧
    (s.rx.state = .ctrlWait → s.cfg.t15.toNat ≤ s.sil.toNat ∧ s.sil.toNat < s.cfg.t35.toNat))

/-- The client's exchange (46_client_fsm.md R292, R295, R296, R300, R306). -/
abbrev ExchangeInv (s : State) : Prop :=
  (s.client.state ≠ .idle ↔ s.regs.result.code = .pending) ∧
  (s.client.state ≠ .idle →
    reqValid s.inst s.client.rq = true ∧ s.client.retryLeft.toNat ≤ s.client.retryBound.toNat) ∧
  (s.client.state = .await → s.client.respElapsed.toNat < s.cfg.tmo.toNat ∧ s.client.rq.unit ≠ 0#8)

/-- While `rst_n` is low the block is in its reset state (70_reset_and_hazards.md R440), the frame buffers at the model's 0
(log 4). -/
abbrev HeldInv (s : State) : Prop :=
  s.rstN = false → s = { State.resetOf s.inst with rstN := false, inputs := s.inputs, out := .nothing }

/-- The invariant of the block. -/
structure Inv (s : State) : Prop where
  legal : Config.legal s.inst = true
  canonical : Canonical s
  inBounds : InBounds s
  cfg : CfgInv s
  sequence : SequenceInv s
  tx : TxInv s
  rx : RxInv s
  exchange : ExchangeInv s
  held : HeldInv s

/-- `d` holds the bits `f 0 .. f (q - 1)`, packed least significant first, and zeros beyond them (30_encoding.md R104). -/
abbrev BitsPacked (d : List Byte) (q : Nat) (f : Nat → BitVec 1) : Prop :=
  d.length = (q + 7) / 8 ∧ (∀ k, k < q → (d.getD (k / 8) 0#8).extractLsb' (k % 8) 1 = f k) ∧
    ∀ k, q ≤ k → k < 8 * d.length → (d.getD (k / 8) 0#8).extractLsb' (k % 8) 1 = 0#1

/-- `d` holds the register values `f 0 .. f (n - 1)`, each high byte first (30_encoding.md R97, R101). -/
abbrev RegsPacked (d : List Byte) (n : Nat) (f : Nat → Word) : Prop :=
  d.length = 2 * n ∧ ∀ i, i < n →
    d.getD (2 * i) 0#8 = (f i).extractLsb' 8 8 ∧ d.getD (2 * i + 1) 0#8 = (f i).extractLsb' 0 8

/-- The instruction is answered with the exception code (60_exceptions.md R403). -/
abbrev Raises (i : Instr) (fc code : Byte) (s : State) : Prop :=
  ∃ t, exec i s = .next t ∧ AnsweredException fc code s t

/-- From `s` a client's exchange resolves with a result and a window (46_client_fsm.md R303, R306): the receiver off,
`C_IDLE`, `RESULT`, `EVT.DONE` and whatever other flags are given; nothing else changes. -/
abbrev resolvedState (r : Result) (flags : BitVec 5) (win : Cells 16) (s : State) : State :=
  { s with
    rx := { s.rx with en := false }
    client := { s.client with state := .idle }
    regs := { s.regs with result := r, evt := s.regs.evt ||| flags, win := win } }

/-- From `s` a client sends its request again (46_client_fsm.md R306, R298): the transmission starts in the same step when
`start` holds. -/
abbrev resendState (flags : BitVec 5) (start : Bool) (s : State) : State :=
  { s with
    rx := { s.rx with en := false }
    client := { s.client with state := .sending, retryLeft := s.client.retryLeft - 1#8 }
    tx := if start then { s.tx with idx := 0#9, active := true } else s.tx
    regs := { s.regs with evt := s.regs.evt ||| flags } }

/-- The outcome `o` of an exchange that fails in `u` with the given result code and FrameError kind (46_client_fsm.md R304 to
R306): without retries left it ends with that result, else the request is sent again; `flags` are set in both cases. -/
abbrev RetriesOrFails (code : ResultCode) (k : Option FrameError) (flags : BitVec 5) (u : State)
    (o : Host.Outcome State Fault Refusal) : Prop :=
  (u.client.retryLeft = 0#8 →
    o = .next (resolvedState ⟨code, k, 0#8, u.client.retryBound⟩ (flags ||| 0x01#5) u.regs.win u)) ∧
  (u.client.retryLeft ≠ 0#8 →
    o = .next (resendState flags (decide (u.cfg.t35.toNat ≤ u.sil.toNat)) u))

/-- `r'` is the receiver `r` after the character `b`, `err` (42_frame_codec.md R191): unchanged when it is off or in `RX_INIT`; a frame
starts in `RX_IDLE`, goes on in `RX_RECV`, and is spoiled from `RX_CTRLWAIT`; a byte beyond 256 is dropped. -/
abbrev ReceiverTakes (b : Byte) (err : Bool) (r r' : Rx) : Prop :=
  r'.en = r.en ∧
  (r.en = false ∨ r.state = .init → r' = r) ∧
  (r.en = true → r.state = .idle →
    r'.state = .recv ∧ r'.len = 1#9 ∧ r'.overrun = false ∧ r'.charErr = err ∧ r'.gap = false ∧
    readCell r'.buf 0 = b ∧ ∀ a, a ≠ 0 → readCell r'.buf a = readCell r.buf a) ∧
  (r.en = true → r.state = .recv ∨ r.state = .ctrlWait →
    r'.state = .recv ∧ r'.charErr = (r.charErr || err) ∧ r'.gap = (r.gap || decide (r.state = .ctrlWait)) ∧
    (r.len.toNat < 256 → r'.len = r.len + 1#9 ∧ r'.overrun = r.overrun ∧ readCell r'.buf r.len.toNat = b ∧
      ∀ a, a ≠ r.len.toNat → readCell r'.buf a = readCell r.buf a) ∧
    (256 ≤ r.len.toNat → r'.len = r.len ∧ r'.overrun = true ∧ r'.buf = r.buf))

/-- A frame ends on the idle tick that brings the silence counter to `sil` (42_frame_codec.md R190). -/
abbrev FrameEnds (c : Cfg) (sil : Nat) (r : Rx) : Prop :=
  r.en = true ∧ r.state = .ctrlWait ∧ c.t35.toNat ≤ sil

/-- `r'` is the receiver `r` after an idle tick that brings the silence counter to `sil` and ends no frame (42_frame_codec.md
R190). -/
abbrev ReceiverTicks (c : Cfg) (sil : Nat) (r r' : Rx) : Prop :=
  r' = { r with state := r'.state } ∧
  (r.en = false → r'.state = r.state) ∧
  (r.en = true → r.state = .init → r'.state = if c.t35.toNat ≤ sil then .idle else .init) ∧
  (r.en = true → r.state = .idle → r'.state = .idle) ∧
  (r.en = true → r.state = .recv → r'.state = if c.t15.toNat ≤ sil then .ctrlWait else .recv) ∧
  (r.en = true → r.state = .ctrlWait → r'.state = .ctrlWait)

/-- The requests the client engine can encode (46_client_fsm.md R295), condition by condition. -/
abbrev RequestLegal (p : Params) (q : Request) : Prop :=
  (q.fc = 0x01#8 ∨ q.fc = 0x03#8 ∨ q.fc = 0x05#8 ∨ q.fc = 0x06#8 ∨
    (p.extFc = true ∧ (q.fc = 0x02#8 ∨ q.fc = 0x04#8 ∨ q.fc = 0x0F#8 ∨ q.fc = 0x10#8))) ∧
  (q.unit = 0#8 → q.fc = 0x05#8 ∨ q.fc = 0x06#8 ∨ q.fc = 0x0F#8 ∨ q.fc = 0x10#8) ∧
  (q.fc = 0x01#8 ∨ q.fc = 0x02#8 → 1 ≤ q.arg.toNat ∧ q.arg.toNat ≤ 2000) ∧
  (q.fc = 0x03#8 ∨ q.fc = 0x04#8 → 1 ≤ q.arg.toNat ∧ q.arg.toNat ≤ 125) ∧
  (q.fc = 0x05#8 → q.arg = 0#16 ∨ q.arg = 1#16) ∧
  (q.fc = 0x0F#8 → 1 ≤ q.arg.toNat ∧ q.arg.toNat ≤ 1968) ∧
  (q.fc = 0x10#8 → 1 ≤ q.arg.toNat ∧ q.arg.toNat ≤ 123)

/-- `p` is the payload of the request `q` built from the window (46_client_fsm.md R297). -/
abbrev RequestPayload (win : Cells 16) (q : Request) (p : List Byte) : Prop :=
  (q.fc = 0x01#8 ∨ q.fc = 0x02#8 ∨ q.fc = 0x03#8 ∨ q.fc = 0x04#8 ∨ q.fc = 0x06#8 →
    p = [hi8 q.start, lo8 q.start, hi8 q.arg, lo8 q.arg]) ∧
  (q.fc = 0x05#8 → p = [hi8 q.start, lo8 q.start, if q.arg = 1#16 then 0xFF#8 else 0x00#8, 0x00#8]) ∧
  (q.fc = 0x0F#8 → ∃ d, p = [hi8 q.start, lo8 q.start, hi8 q.arg, lo8 q.arg, BitVec.ofNat 8 d.length] ++ d ∧
    BitsPacked d q.arg.toNat fun k => (readCell win (k / 16)).extractLsb' (k % 16) 1) ∧
  (q.fc = 0x10#8 → ∃ d, p = [hi8 q.start, lo8 q.start, hi8 q.arg, lo8 q.arg, BitVec.ofNat 8 d.length] ++ d ∧
    RegsPacked d q.arg.toNat fun i => readCell win i)

/-- The configuration values make `OPEN` succeed (41_uart.md R151), condition by condition. -/
abbrev OpenLegal (r : Regs) : Prop :=
  r.baud ≠ 0#24 ∧ r.line.extractLsb' 0 4 = 8#4 ∧ r.line.extractLsb' 4 2 ≠ 3#2 ∧
  (r.ift = 0#16 ∨ t15Of (charTicks (r.line.extractLsb' 4 2) (r.line.getLsbD 6)) < r.ift.toNat) ∧
  (r.mode.getLsbD 0 = true → r.unit ≠ 0#8) ∧ (r.mode.getLsbD 0 = false → r.timeoutMs ≠ 0#16)

/-- The line events of characters `b`, each after a gap of idle ticks (42_frame_codec.md R200). -/
def lineScript (l : List (Nat × Byte)) : List Event :=
  l.flatMap fun x => List.replicate x.1 .idleTick ++ [.rxChar x.2 false]

end Sys2Proof.Machine
end

