-- ==== Sys2Proof/Certificates/Slice0/Obligations.lean ====
section
/-! DEFINITION. The statements for the provers. -/

open Sys2Proof Sys2Proof.Machine

/-! ## Encoding, CRC, characters -/

/-- Decoding the encoding of a well-formed instruction gives that instruction back, every operand at every value (30_encoding.md,
R107; 42_frame_codec.md, R182 and R195; 10_state.md, R33). -/
def Obligations.DecodeEncodeAgree : Prop :=
  ∀ i : Instr, i.wellFormed = true → decode (encode i) = .ok [i]

/-- Words the spec writes out decode to the instructions they stand for (95_test_vectors.md, 2.4; 10_state.md R33). -/
def Obligations.SpecWordsDecode : Prop :=
  decode (.frame [0x01, 0x03, 0x00, 0x00, 0x00, 0x0A, 0xC5, 0xCD]) =
    .ok [.readHoldingRegisters 0x01 (.pair 0 10)] ∧
  decode (.frame [0x01, 0x05, 0x00, 0x03, 0xFF, 0x00, 0x7C, 0x3A]) =
    .ok [.writeSingleCoil 0x01 (.pair 3 0xFF00)] ∧
  decode (.frame [0x01, 0x0F, 0x00, 0x04, 0x00, 0x0A, 0x02, 0xCD, 0x01, 0x71, 0xEC]) =
    .ok [.writeMultipleCoils 0x01 (.multi 4 10 2 [0xCD, 0x01])] ∧
  decode (.frame [0x01, 0x83, 0x02, 0xC0, 0xF1]) = .ok [.exception 0x01 0x03 [0x02]] ∧
  decode (.csrWrite 0x00 0x04) = .ok [.goCmd] ∧
  decode (.csrWrite 0x02 0x01) = .ok [.evtClear 1]

/-- The decoder's tests and their order (R195). -/
def Obligations.FrameTestsInOrder : Prop :=
  ∀ (overrun charErr gap : Bool) (f : List Byte),
    (overrun = true → decodeFrame overrun charErr gap f = .error .overrun) ∧
    (overrun = false → charErr = true → decodeFrame overrun charErr gap f = .error .charError) ∧
    (overrun = false → charErr = false → (gap = true ∨ f.length < 4) →
      decodeFrame overrun charErr gap f = .error .truncated) ∧
    (overrun = false → charErr = false → gap = false → 4 ≤ f.length → crcOk f = false →
      decodeFrame overrun charErr gap f = .error .crcMismatch) ∧
    (overrun = false → charErr = false → gap = false → 4 ≤ f.length → crcOk f = true →
      ∃ p c d, f = f.getD 0 0#8 :: f.getD 1 0#8 :: p ++ [c, d] ∧
        decodeFrame overrun charErr gap f = .ok ⟨f.getD 0 0#8, f.getD 1 0#8, p⟩)

/-- The CRC register's two operations on the host's instance, and that nothing else changes (R131, R132, R137; the
procedure is the spec's, from general knowledge). -/
def Obligations.CrcPortInstructions : Prop :=
  ∀ (s : State) (b : Byte),
    exec .crcInit s = .next { s with regs := { s.regs with hcrc := 0xFFFF#16 } } ∧
    exec (.crcDataWrite b) s = .next { s with regs := { s.regs with
      hcrc := Nat.iterate (fun c : Word => if c.getLsbD 0 then (c >>> 1) ^^^ 0xA001#16 else c >>> 1) 8
        (s.regs.hcrc ^^^ b.setWidth 16) } }

/-- Residue: a property the spec marks as its own inference (40_crc.md, section 2, R136). -/
def Obligations.CrcResidueIsZero : Prop :=
  (∀ s : List Byte, crc16 (s ++ crcGen s) = 0#16) ∧
  ∀ f : List Byte, 4 ≤ f.length → (crcOk f = true ↔ crc16 f = 0#16)

/-- Every generated frame is accepted, and every single-bit change of an accepted frame is rejected; the spec
marks parts of it as its own inference (40_crc.md, section 3, R138). -/
def Obligations.CrcDetectsSingleBitErrors : Prop :=
  (∀ s : List Byte, crcOk (s ++ crcGen s) = true) ∧
  ∀ (f : List Byte) (i j : Nat), 4 ≤ f.length → crcOk f = true → i < f.length → j < 8 →
    crcOk (f.set i (f.getD i 0#8 ^^^ (1#8 <<< j))) = false ∧
    decodeFrame false false false (f.set i (f.getD i 0#8 ^^^ (1#8 <<< j))) = .error .crcMismatch

/-- A character on the line: a start bit 0, the data bits least significant first, the parity bit (even: the exclusive or of the data
bits; odd: its negation; none), stop bits 1 (R153 to R157, R159). Its samples are received as the byte sent; a wrong parity bit or a
first stop bit of 0 sets `err`, while the second stop bit is not checked (R157, R158). -/
def Obligations.CharacterRoundTrip : Prop :=
  ∀ (b : Byte) (parity : BitVec 2) (stop2 x : Bool), parity ≠ 3#2 →
    x = (b.getLsbD 0 ^^ b.getLsbD 1 ^^ b.getLsbD 2 ^^ b.getLsbD 3 ^^ b.getLsbD 4 ^^ b.getLsbD 5 ^^ b.getLsbD 6 ^^
      b.getLsbD 7) →
    charBits parity stop2 b =
      [false, b.getLsbD 0, b.getLsbD 1, b.getLsbD 2, b.getLsbD 3, b.getLsbD 4, b.getLsbD 5, b.getLsbD 6, b.getLsbD 7] ++
        (if parity = 1#2 then [x] else if parity = 2#2 then [!x] else []) ++ (if stop2 then [true, true] else [true]) ∧
    (charBits parity stop2 b).length = charTicks parity stop2 ∧
    sampledChar parity ((charBits parity stop2 b).drop 1) = (b, false) ∧
    (parity = 1#2 → sampledChar parity (((charBits parity stop2 b).drop 1).set 8 (!x)) = (b, true)) ∧
    (parity = 2#2 → sampledChar parity (((charBits parity stop2 b).drop 1).set 8 x) = (b, true)) ∧
    sampledChar parity
      (((charBits parity stop2 b).drop 1).set (if parity = 0#2 then 8 else 9) false) = (b, true) ∧
    (stop2 = true → sampledChar parity
      (((charBits parity stop2 b).drop 1).set (if parity = 0#2 then 9 else 10) false) = (b, false))

/-- The six character formats (R164, which the spec marks as derived): parity code, two stop bits, `CB`, `T15`, derived `T35`. -/
def Obligations.CharacterFormats : Prop :=
  ∀ row ∈ [((0#2 : BitVec 2), false, 10, 15, 35), (0#2, true, 11, 17, 39), (1#2, false, 11, 17, 39),
      (1#2, true, 12, 18, 42), (2#2, false, 11, 17, 39), (2#2, true, 12, 18, 42)],
    charTicks row.1 row.2.1 = row.2.2.1 ∧ t15Of (charTicks row.1 row.2.1) = row.2.2.2.1 ∧
      t35Of 0 (charTicks row.1 row.2.1) = row.2.2.2.2

/-! ## Requests in server role -/

/-- `READ_COILS` and `READ_DISCRETE_INPUTS` addressed to this unit complete: the response carries the bits of the range, and
nothing but the record and the transmitter changes (R240 to R242, R333). -/
def Obligations.BitReadsAnswerTheRange : Prop :=
  ∀ (s : State) (addr : Byte) (start qty : Word), Canonical s → Serving addr s →
    1 ≤ qty.toNat → qty.toNat ≤ 2000 →
    (start.toNat + qty.toNat ≤ s.inst.nCoils →
      ∃ t d, exec (.readCoils addr (.pair start qty)) s = .next t ∧
        BitsPacked d qty.toNat (fun k => readCell s.mem.coils (start.toNat + k)) ∧
        Answered 0x01#8 0x01#8 (BitVec.ofNat 8 d.length :: d) 0#8 s t ∧ t.mem = s.mem) ∧
    (s.inst.extFc = true → start.toNat + qty.toNat ≤ s.inst.nDi →
      ∃ t d, exec (.readDiscreteInputs addr (.pair start qty)) s = .next t ∧
        BitsPacked d qty.toNat (fun k => readCell s.mem.di (start.toNat + k)) ∧
        Answered 0x02#8 0x02#8 (BitVec.ofNat 8 d.length :: d) 0#8 s t ∧ t.mem = s.mem)

/-- `READ_HOLDING_REGISTERS` and `READ_INPUT_REGISTERS` addressed to this unit complete (R240, R243, R244, R333). -/
def Obligations.RegisterReadsAnswerTheRange : Prop :=
  ∀ (s : State) (addr : Byte) (start qty : Word), Canonical s → Serving addr s →
    1 ≤ qty.toNat → qty.toNat ≤ 125 →
    (start.toNat + qty.toNat ≤ s.inst.nHr →
      ∃ t d, exec (.readHoldingRegisters addr (.pair start qty)) s = .next t ∧
        RegsPacked d qty.toNat (fun k => readCell s.mem.hr (start.toNat + k)) ∧
        Answered 0x03#8 0x03#8 (BitVec.ofNat 8 d.length :: d) 0#8 s t ∧ t.mem = s.mem) ∧
    (s.inst.extFc = true → start.toNat + qty.toNat ≤ s.inst.nIr →
      ∃ t d, exec (.readInputRegisters addr (.pair start qty)) s = .next t ∧
        RegsPacked d qty.toNat (fun k => readCell s.mem.ir (start.toNat + k)) ∧
        Answered 0x04#8 0x04#8 (BitVec.ofNat 8 d.length :: d) 0#8 s t ∧ t.mem = s.mem)

/-- `WRITE_SINGLE_COIL` addressed to this unit completes: the coil is stored, the payload echoed (R261, R333). -/
def Obligations.SingleCoilWriteStores : Prop :=
  ∀ (s : State) (addr : Byte) (address value : Word), Canonical s → Serving addr s →
    (value = 0xFF00#16 ∨ value = 0x0000#16) → address.toNat < s.inst.nCoils →
    ∃ t, exec (.writeSingleCoil addr (.pair address value)) s = .next t ∧
      Answered 0x05#8 0x05#8 [hi8 address, lo8 address, hi8 value, lo8 value] 0#8 s t ∧
      OnlyCoils address.toNat 1 s.mem t.mem ∧
      readCell t.mem.coils address.toNat = (if value = 0xFF00#16 then 1#1 else 0#1)

/-- `WRITE_SINGLE_REGISTER` addressed to this unit completes (R262, R333). -/
def Obligations.SingleRegisterWriteStores : Prop :=
  ∀ (s : State) (addr : Byte) (address value : Word), Canonical s → Serving addr s →
    address.toNat < s.inst.nHr →
    ∃ t, exec (.writeSingleRegister addr (.pair address value)) s = .next t ∧
      Answered 0x06#8 0x06#8 [hi8 address, lo8 address, hi8 value, lo8 value] 0#8 s t ∧
      OnlyHolding address.toNat 1 s.mem t.mem ∧ readCell t.mem.hr address.toNat = value

/-- `WRITE_MULTIPLE_COILS` addressed to this unit completes: the whole range is stored, nothing beside it (R263, R333). -/
def Obligations.MultipleCoilWriteStores : Prop :=
  ∀ (s : State) (addr : Byte) (start qty : Word) (bc : Byte) (data : List Byte), Canonical s → Serving addr s →
    s.inst.extFc = true → 1 ≤ qty.toNat → qty.toNat ≤ 1968 → bc.toNat = (qty.toNat + 7) / 8 →
    data.length = bc.toNat → start.toNat + qty.toNat ≤ s.inst.nCoils →
    ∃ t, exec (.writeMultipleCoils addr (.multi start qty bc data)) s = .next t ∧
      Answered 0x0F#8 0x0F#8 [hi8 start, lo8 start, hi8 qty, lo8 qty] 0#8 s t ∧
      OnlyCoils start.toNat qty.toNat s.mem t.mem ∧
      ∀ k, k < qty.toNat →
        readCell t.mem.coils (start.toNat + k) = (data.getD (k / 8) 0#8).extractLsb' (k % 8) 1

/-- `WRITE_MULTIPLE_REGISTERS` addressed to this unit completes (R264, R333). -/
def Obligations.MultipleRegisterWriteStores : Prop :=
  ∀ (s : State) (addr : Byte) (start qty : Word) (bc : Byte) (data : List Byte), Canonical s → Serving addr s →
    s.inst.extFc = true → 1 ≤ qty.toNat → qty.toNat ≤ 123 → bc.toNat = 2 * qty.toNat →
    data.length = bc.toNat → start.toNat + qty.toNat ≤ s.inst.nHr →
    ∃ t, exec (.writeMultipleRegisters addr (.multi start qty bc data)) s = .next t ∧
      Answered 0x10#8 0x10#8 [hi8 start, lo8 start, hi8 qty, lo8 qty] 0#8 s t ∧
      OnlyHolding start.toNat qty.toNat s.mem t.mem ∧
      ∀ k, k < qty.toNat →
        readCell t.mem.hr (start.toNat + k) = be16 (data.getD (2 * k) 0#8) (data.getD (2 * k + 1) 0#8)

/-- A payload of the wrong length is answered `ILLEGAL_DATA_VALUE` by every function, with no table touched: not four bytes for 0x01
to 0x06; for 0x0F and 0x10 fewer than five, or a byte count that disagrees with the payload or with the quantity (R224). -/
def Obligations.WrongLengthIsIllegalDataValue : Prop :=
  ∀ (s : State) (addr : Byte) (p : List Byte) (start qty : Word) (bc : Byte) (data : List Byte),
    Canonical s → Serving addr s →
    (p.length ≠ 4 →
      Raises (.readCoils addr (.malformed p)) 0x01#8 0x03#8 s ∧
      Raises (.readHoldingRegisters addr (.malformed p)) 0x03#8 0x03#8 s ∧
      Raises (.writeSingleCoil addr (.malformed p)) 0x05#8 0x03#8 s ∧
      Raises (.writeSingleRegister addr (.malformed p)) 0x06#8 0x03#8 s ∧
      (s.inst.extFc = true →
        Raises (.readDiscreteInputs addr (.malformed p)) 0x02#8 0x03#8 s ∧
        Raises (.readInputRegisters addr (.malformed p)) 0x04#8 0x03#8 s)) ∧
    (p.length < 5 → s.inst.extFc = true →
      Raises (.writeMultipleCoils addr (.short p)) 0x0F#8 0x03#8 s ∧
      Raises (.writeMultipleRegisters addr (.short p)) 0x10#8 0x03#8 s) ∧
    (s.inst.extFc = true →
      (data.length ≠ bc.toNat ∨ bc.toNat ≠ (qty.toNat + 7) / 8 →
        Raises (.writeMultipleCoils addr (.multi start qty bc data)) 0x0F#8 0x03#8 s) ∧
      (data.length ≠ bc.toNat ∨ bc.toNat ≠ 2 * qty.toNat →
        Raises (.writeMultipleRegisters addr (.multi start qty bc data)) 0x10#8 0x03#8 s))

/-- A quantity of 0 or above the limit and a coil value other than the two legal ones are answered `ILLEGAL_DATA_VALUE`, wherever
the range lies and whatever data follow (R223, R225, R102; the limits are the spec's, from general knowledge). -/
def Obligations.IllegalValuesAreRefused : Prop :=
  ∀ (s : State) (addr : Byte) (start qty : Word) (bc : Byte) (data : List Byte), Canonical s → Serving addr s →
    ((qty.toNat = 0 ∨ 2000 < qty.toNat) → Raises (.readCoils addr (.pair start qty)) 0x01#8 0x03#8 s) ∧
    ((qty.toNat = 0 ∨ 125 < qty.toNat) → Raises (.readHoldingRegisters addr (.pair start qty)) 0x03#8 0x03#8 s) ∧
    (qty ≠ 0xFF00#16 → qty ≠ 0x0000#16 → Raises (.writeSingleCoil addr (.pair start qty)) 0x05#8 0x03#8 s) ∧
    (s.inst.extFc = true →
      ((qty.toNat = 0 ∨ 2000 < qty.toNat) →
        Raises (.readDiscreteInputs addr (.pair start qty)) 0x02#8 0x03#8 s) ∧
      ((qty.toNat = 0 ∨ 125 < qty.toNat) →
        Raises (.readInputRegisters addr (.pair start qty)) 0x04#8 0x03#8 s) ∧
      ((qty.toNat = 0 ∨ 1968 < qty.toNat) →
        Raises (.writeMultipleCoils addr (.multi start qty bc data)) 0x0F#8 0x03#8 s) ∧
      ((qty.toNat = 0 ∨ 123 < qty.toNat) →
        Raises (.writeMultipleRegisters addr (.multi start qty bc data)) 0x10#8 0x03#8 s))

/-- A range that leaves the table is answered `ILLEGAL_DATA_ADDRESS`, the sum never wrapping, and no table changes (R68, R69,
R226, R227). -/
def Obligations.OutOfRangeIsIllegalDataAddress : Prop :=
  ∀ (s : State) (addr : Byte) (start qty : Word) (bc : Byte) (data : List Byte), Canonical s → Serving addr s →
    (1 ≤ qty.toNat → qty.toNat ≤ 2000 → s.inst.nCoils < start.toNat + qty.toNat →
      Raises (.readCoils addr (.pair start qty)) 0x01#8 0x02#8 s) ∧
    (1 ≤ qty.toNat → qty.toNat ≤ 125 → s.inst.nHr < start.toNat + qty.toNat →
      Raises (.readHoldingRegisters addr (.pair start qty)) 0x03#8 0x02#8 s) ∧
    ((qty = 0xFF00#16 ∨ qty = 0x0000#16) → s.inst.nCoils ≤ start.toNat →
      Raises (.writeSingleCoil addr (.pair start qty)) 0x05#8 0x02#8 s) ∧
    (s.inst.nHr ≤ start.toNat → Raises (.writeSingleRegister addr (.pair start qty)) 0x06#8 0x02#8 s) ∧
    (s.inst.extFc = true →
      (1 ≤ qty.toNat → qty.toNat ≤ 2000 → s.inst.nDi < start.toNat + qty.toNat →
        Raises (.readDiscreteInputs addr (.pair start qty)) 0x02#8 0x02#8 s) ∧
      (1 ≤ qty.toNat → qty.toNat ≤ 125 → s.inst.nIr < start.toNat + qty.toNat →
        Raises (.readInputRegisters addr (.pair start qty)) 0x04#8 0x02#8 s) ∧
      (1 ≤ qty.toNat → qty.toNat ≤ 1968 → bc.toNat = (qty.toNat + 7) / 8 → data.length = bc.toNat →
        s.inst.nCoils < start.toNat + qty.toNat →
        Raises (.writeMultipleCoils addr (.multi start qty bc data)) 0x0F#8 0x02#8 s) ∧
      (1 ≤ qty.toNat → qty.toNat ≤ 123 → bc.toNat = 2 * qty.toNat → data.length = bc.toNat →
        s.inst.nHr < start.toNat + qty.toNat →
        Raises (.writeMultipleRegisters addr (.multi start qty bc data)) 0x10#8 0x02#8 s))

/-- Function codes with bit 7 set, and the four extension codes where they are not present, are answered `ILLEGAL_FUNCTION`
whatever the payload (R119, R120, R222, R228). -/
def Obligations.UnsupportedIsIllegalFunction : Prop :=
  ∀ (s : State) (addr : Byte) (fc7 : BitVec 7) (p : List Byte) (q : PairReq) (r : MultiReq),
    Canonical s → Serving addr s →
    Raises (.exception addr fc7 p) (highFc fc7) 0x01#8 s ∧
    (s.inst.extFc = false →
      Raises (.readDiscreteInputs addr q) 0x02#8 0x01#8 s ∧ Raises (.readInputRegisters addr q) 0x04#8 0x01#8 s ∧
      Raises (.writeMultipleCoils addr r) 0x0F#8 0x01#8 s ∧
      Raises (.writeMultipleRegisters addr r) 0x10#8 0x01#8 s)

/-- A broadcast write does to the Data Store what the same request to this unit does, is recorded with its exception code, and
nothing is sent (R265, R335). -/
def Obligations.BroadcastWriteIsAppliedSilently : Prop :=
  ∀ (s : State) (q : PairReq) (r : MultiReq), ServingBroadcast s →
    (∀ i ∈ [(Instr.writeSingleCoil 0#8 q, Instr.writeSingleCoil s.cfg.unit q, 0x05#8),
        (Instr.writeSingleRegister 0#8 q, Instr.writeSingleRegister s.cfg.unit q, 0x06#8)] ++
        (if s.inst.extFc then [(Instr.writeMultipleCoils 0#8 r, Instr.writeMultipleCoils s.cfg.unit r, 0x0F#8),
          (Instr.writeMultipleRegisters 0#8 r, Instr.writeMultipleRegisters s.cfg.unit r, 0x10#8)] else []),
      ∃ u, exec i.2.1 s = .next u ∧
        exec i.1 s = .next { s with
          mem := u.mem
          sstate := .listen
          regs := { s.regs with
            evt := s.regs.evt ||| 0x02#5
            srv := { s.regs.srv with
              lastFc := i.2.2, lastExc := u.regs.srv.lastExc, lastBcast := true } } })

/-- A frame for somebody else, and a broadcast that is not a supported write, are discarded without a trace (R332, R334, R335): as a frame
instruction, and on the step that ends the frame, whatever its function code (a row of the map or none). -/
def Obligations.OtherFramesAreDiscarded : Prop :=
  (∀ (i : Instr) (fr : Frame) (s : State), frameOf i = some fr → s.isOpen = true → s.rx.en = true →
    s.cfg.role = .server → fr.addr ≠ s.cfg.unit → (fr.addr ≠ 0#8 ∨ s.cfg.bcastEn = false) →
    exec i s = .next { s with sstate := .listen }) ∧
  (∀ (s : State) (q : PairReq) (r : MultiReq) (fc7 : BitVec 7) (p : List Byte), ServingBroadcast s →
    ∀ i ∈ [Instr.readCoils 0#8 q, Instr.readDiscreteInputs 0#8 q, Instr.readHoldingRegisters 0#8 q,
        Instr.readInputRegisters 0#8 q, Instr.exception 0#8 fc7 p] ++
        (if s.inst.extFc then [] else [Instr.writeMultipleCoils 0#8 r, Instr.writeMultipleRegisters 0#8 r]),
      exec i s = .next { s with sstate := .listen }) ∧
  ∀ (s : State) (rest : List Event) (fr : Frame), s.rstN = true → s.inputs = .idleTick :: rest → s.tx.active = false →
    Serving s.cfg.unit s → s.client.state = .idle → s.rx.state = .ctrlWait → s.cfg.t35.toNat ≤ s.sil.toNat + 1 →
    decodeFrame s.rx.overrun s.rx.charErr s.rx.gap (readCells s.rx.buf 0 s.rx.len.toNat) = .ok fr →
    fr.addr ≠ s.cfg.unit →
    (fr.addr ≠ 0#8 ∨ s.cfg.bcastEn = false ∨
      (fr.fc ∉ [0x05#8, 0x06#8] ∧ (s.inst.extFc = false ∨ fr.fc ∉ [0x0F#8, 0x10#8]))) →
    ∃ sil : BitVec 32, sil.toNat = min (s.sil.toNat + 1) 4294967295 ∧
      step s = .next { s with
        inputs := rest
        out := .nothing
        sil := sil
        rx := { s.rx with state := .idle }
        sstate := .listen }

/-- A frame instruction changes the Data Store only in server role, by a write function whose checks all passed, and never the input
tables (R227, R266, R410, R420). -/
def Obligations.OnlySuccessfulWritesChangeTables : Prop :=
  ∀ (i : Instr) (fr : Frame) (s t : State), frameOf i = some fr → exec i s = .next t → t.mem ≠ s.mem →
    s.cfg.role = .server ∧ t.regs.srv.lastExc = 0#8 ∧ t.regs.srv.lastFc = fr.fc ∧
      (fr.fc = 0x05#8 ∨ fr.fc = 0x06#8 ∨ fr.fc = 0x0F#8 ∨ fr.fc = 0x10#8) ∧
      t.mem.di = s.mem.di ∧ t.mem.ir = s.mem.ir

/-- The model's reading of R57 and R192 (log 6): a frame that meets a closed block or a receiver that is off is lost. -/
def Obligations.FramesNeedTheReceiver : Prop :=
  ∀ (i : Instr) (fr : Frame) (s : State), frameOf i = some fr → (s.isOpen = false ∨ s.rx.en = false) →
    exec i s = .next s

/-! ## Responses in client role -/

/-- A good response to a bit read resolves the exchange and its bits are in `WIN` (R301 to R303). -/
def Obligations.BitResponseIsStored : Prop :=
  ∀ (i : Instr) (fr : Frame) (s : State), Canonical s → frameOf i = some fr → Awaiting s →
    fr.addr = s.client.rq.unit → fr.fc = s.client.rq.fc → (fr.fc = 0x01#8 ∨ fr.fc = 0x02#8) →
    fr.payload.length = 1 + (s.client.rq.arg.toNat + 7) / 8 →
    (fr.payload.getD 0 0#8).toNat = (s.client.rq.arg.toNat + 7) / 8 →
    ∃ win, exec i s =
        .next (resolvedState ⟨.ok, none, 0#8, s.client.retryBound - s.client.retryLeft⟩ 0x01#5 win s) ∧
      (∀ k, k < s.client.rq.arg.toNat → (readCell win (k / 16)).extractLsb' (k % 16) 1 =
        (fr.payload.getD (1 + k / 8) 0#8).extractLsb' (k % 8) 1) ∧
      (∀ k, s.client.rq.arg.toNat ≤ k → k < 16 * ((s.client.rq.arg.toNat + 15) / 16) →
        (readCell win (k / 16)).extractLsb' (k % 16) 1 = 0#1) ∧
      ∀ w, (s.client.rq.arg.toNat + 15) / 16 ≤ w → readCell win w = readCell s.regs.win w

/-- A good response to a register read resolves the exchange and its values are in `WIN` (R301 to R303). -/
def Obligations.RegisterResponseIsStored : Prop :=
  ∀ (i : Instr) (fr : Frame) (s : State), Canonical s → frameOf i = some fr → Awaiting s →
    fr.addr = s.client.rq.unit → fr.fc = s.client.rq.fc → (fr.fc = 0x03#8 ∨ fr.fc = 0x04#8) →
    fr.payload.length = 1 + 2 * s.client.rq.arg.toNat →
    (fr.payload.getD 0 0#8).toNat = 2 * s.client.rq.arg.toNat →
    ∃ win, exec i s =
        .next (resolvedState ⟨.ok, none, 0#8, s.client.retryBound - s.client.retryLeft⟩ 0x01#5 win s) ∧
      (∀ k, k < s.client.rq.arg.toNat →
        readCell win k = be16 (fr.payload.getD (1 + 2 * k) 0#8) (fr.payload.getD (2 + 2 * k) 0#8)) ∧
      ∀ w, s.client.rq.arg.toNat ≤ w → readCell win w = readCell s.regs.win w

/-- A response to a write that repeats the request's first four payload bytes resolves the exchange (R302, R303). -/
def Obligations.WriteResponseResolves : Prop :=
  ∀ (i : Instr) (fr : Frame) (s : State), frameOf i = some fr → Awaiting s →
    fr.addr = s.client.rq.unit → fr.fc = s.client.rq.fc →
    (fr.fc = 0x05#8 ∨ fr.fc = 0x06#8 ∨ fr.fc = 0x0F#8 ∨ fr.fc = 0x10#8) →
    fr.payload = readCells s.tx.buf 2 4 →
    exec i s = .next (resolvedState ⟨.ok, none, 0#8, s.client.retryBound - s.client.retryLeft⟩ 0x01#5 s.regs.win s)

/-- `EXCEPTION` completes in client role: an exception response to the request resolves the exchange, every code surfaced as received
and no retry made (R302, R303, R405). -/
def Obligations.ExceptionResponseResolves : Prop :=
  ∀ (addr : Byte) (fc7 : BitVec 7) (code : Byte) (s : State), Awaiting s → addr = s.client.rq.unit →
    highFc fc7 = s.client.rq.fc ||| 0x80#8 →
    exec (.exception addr fc7 [code]) s = .next (resolvedState
      ⟨.protocolException, none, code, s.client.retryBound - s.client.retryLeft⟩ 0x01#5 s.regs.win s)

/-- A well-formed frame that is not the answer is ignored (R301, R302): as a frame instruction it changes nothing, and on the step that
ends it, whatever its function code (a row of the map or none), the client goes on waiting with its timer running; if that tick closes
the response window, the exchange times out (R300). -/
def Obligations.OtherFramesAreIgnoredByClient : Prop :=
  (∀ (i : Instr) (fr : Frame) (s : State), frameOf i = some fr → Awaiting s →
    (fr.addr ≠ s.client.rq.unit ∨ (fr.fc ≠ s.client.rq.fc ∧ fr.fc ≠ s.client.rq.fc ||| 0x80#8)) →
    exec i s = .next s) ∧
  ∀ (s : State) (rest : List Event) (fr : Frame), s.rstN = true → s.inputs = .idleTick :: rest → Awaiting s →
    s.tx.active = false → s.rx.state = .ctrlWait → s.cfg.t35.toNat ≤ s.sil.toNat + 1 →
    decodeFrame s.rx.overrun s.rx.charErr s.rx.gap (readCells s.rx.buf 0 s.rx.len.toNat) = .ok fr →
    (fr.addr ≠ s.client.rq.unit ∨ (fr.fc ≠ s.client.rq.fc ∧ fr.fc ≠ s.client.rq.fc ||| 0x80#8)) →
    s.client.respElapsed.toNat + 1 < 4294967296 →
    ∃ (sil elapsed : BitVec 32) (u : State), sil.toNat = min (s.sil.toNat + 1) 4294967295 ∧
      elapsed.toNat = s.client.respElapsed.toNat + 1 ∧
      u = { s with
        inputs := rest
        out := .nothing
        sil := sil
        rx := { s.rx with state := .idle }
        client := { s.client with respElapsed := elapsed } } ∧
      (s.client.respElapsed.toNat + 1 < s.cfg.tmo.toNat → step s = .next u) ∧
      (s.cfg.tmo.toNat ≤ s.client.respElapsed.toNat + 1 → RetriesOrFails .timeout none 0#5 u (step s))

/-- A bad response while the client waits: a matching frame of the wrong shape is `BAD_PDU`, and a frame that fails its tests with kind
`k` ends on the idle tick that completes the silence. Either sets `EVT.RXDROP`; the request is sent again while retries are left, else
the exchange ends with `CORRUPTED_RESPONSE` and the kind (R301, R302, R305, R306). -/
def Obligations.BadResponseRetriesOrFails : Prop :=
  (∀ (i : Instr) (fr : Frame) (s : State), frameOf i = some fr → Awaiting s → s.tx.active = false →
    fr.addr = s.client.rq.unit →
    ((fr.fc = s.client.rq.fc ||| 0x80#8 ∧ fr.payload.length ≠ 1) ∨
      (fr.fc = s.client.rq.fc ∧ (fr.fc = 0x01#8 ∨ fr.fc = 0x02#8) ∧
        ¬(fr.payload.length = 1 + (s.client.rq.arg.toNat + 7) / 8 ∧
          (fr.payload.getD 0 0#8).toNat = (s.client.rq.arg.toNat + 7) / 8)) ∨
      (fr.fc = s.client.rq.fc ∧ (fr.fc = 0x03#8 ∨ fr.fc = 0x04#8) ∧
        ¬(fr.payload.length = 1 + 2 * s.client.rq.arg.toNat ∧
          (fr.payload.getD 0 0#8).toNat = 2 * s.client.rq.arg.toNat)) ∨
      (fr.fc = s.client.rq.fc ∧ (fr.fc = 0x05#8 ∨ fr.fc = 0x06#8 ∨ fr.fc = 0x0F#8 ∨ fr.fc = 0x10#8) ∧
        fr.payload ≠ readCells s.tx.buf 2 4)) →
    RetriesOrFails .corruptedResponse (some .badPdu) 0x04#5 s (exec i s)) ∧
  ∀ (s : State) (rest : List Event) (k : FrameError), s.rstN = true → s.inputs = .idleTick :: rest → Awaiting s →
    s.tx.active = false → s.rx.state = .ctrlWait → s.cfg.t35.toNat ≤ s.sil.toNat + 1 →
    decodeFrame s.rx.overrun s.rx.charErr s.rx.gap (readCells s.rx.buf 0 s.rx.len.toNat) = .error k →
    ∃ (sil : BitVec 32) (u : State), sil.toNat = min (s.sil.toNat + 1) 4294967295 ∧
      u = { s with
        inputs := rest
        out := .nothing
        sil := sil
        rx := { s.rx with state := .idle }
        client := { s.client with respElapsed := s.client.respElapsed + 1#32 } } ∧
      RetriesOrFails .corruptedResponse (some k) 0x04#5 u (step s)

/-! ## The host's instructions -/

/-- `OPEN` completes when the block is closed and the configuration legal: the session starts with the values of R160 to R163, and
nothing else changes (R42, R364). -/
def Obligations.OpenStartsASession : Prop :=
  ∀ s : State, s.isOpen = false → OpenLegal s.regs →
    ∃ (cb : BitVec 4) (t15 : BitVec 5) (t35 : BitVec 16) (tmo : BitVec 32),
      cb.toNat = 10 + (if s.regs.line.extractLsb' 4 2 = 0#2 then 0 else 1) +
        (if s.regs.line.getLsbD 6 then 1 else 0) ∧
      t15.toNat = (3 * cb.toNat + 1) / 2 ∧
      t35.toNat = (if s.regs.ift = 0#16 then (7 * cb.toNat + 1) / 2 else s.regs.ift.toNat) ∧
      tmo.toNat = (s.regs.timeoutMs.toNat * s.regs.baud.toNat + 999) / 1000 ∧
      exec .openCmd s = .next { s with
        isOpen := true
        cfg := {
          baud := s.regs.baud
          parity := s.regs.line.extractLsb' 4 2
          stop2 := s.regs.line.getLsbD 6
          role := if s.regs.mode.getLsbD 0 then .server else .client
          bcastEn := s.regs.mode.getLsbD 1
          unit := s.regs.unit
          cb := cb
          t15 := t15
          t35 := t35
          tmo := tmo }
        regs := { s.regs with tcause := .none }
        sil := 0#32
        tx := { s.tx with active := false, idx := 0#9 }
        client := { s.client with state := .idle }
        sstate := .listen
        rx := if s.regs.mode.getLsbD 0 then
            { s.rx with
              en := true, state := .init, len := 0#9, overrun := false, charErr := false, gap := false }
          else { s.rx with en := false, state := .init, len := 0#9 } }

/-- `OPEN` turned away: while open it sets `EVT.CMDREJ` only; with an illegal configuration it records `BAD_CONFIG` and the block
stays closed (R364, R408). -/
def Obligations.OpenTurnedAway : Prop :=
  ∀ s : State,
    (s.isOpen = true → exec .openCmd s =
      .next { s with regs := { s.regs with evt := s.regs.evt ||| 0x10#5 } }) ∧
    (s.isOpen = false → ¬OpenLegal s.regs → exec .openCmd s =
      .next { s with regs := { s.regs with tcause := .badConfig, evt := s.regs.evt ||| 0x08#5 } })

/-- `CLOSE` completes: the line stops, an exchange in flight ends with `TRANSPORT_ERROR`, and all else is kept; while closed it does
nothing (R365, R408). -/
def Obligations.CloseEndsTheSession : Prop :=
  ∀ s : State,
    (s.isOpen = true → exec .closeCmd s = .next { s with
      isOpen := false
      tx := { s.tx with active := false, idx := 0#9 }
      rx := { s.rx with
        en := false, state := .init, len := 0#9, overrun := false, charErr := false, gap := false }
      regs := if s.client.state = .idle then s.regs else { s.regs with
        result := ⟨.transportError, none, 0#8, s.client.retryBound - s.client.retryLeft⟩
        tcause := .closedInFlight
        evt := s.regs.evt ||| 0x09#5 }
      client := { s.client with state := .idle }
      sstate := .listen }) ∧
    (s.isOpen = false → exec .closeCmd s = .next s)

/-- `GO` completes when a client is idle and the request legal: the request is latched, its frame is in `tx_buf`, `RESULT` is
`PENDING`, and the transmission starts in the same step on a silent line (R295 to R298, R83). -/
def Obligations.GoStartsTheExchange : Prop :=
  ∀ (s : State) (q : Request), Canonical s → s.isOpen = true → s.cfg.role = .client →
    s.client.state = .idle → s.tx.active = false →
    q = ⟨s.regs.req0.extractLsb' 0 8, s.regs.req0.extractLsb' 8 8, s.regs.req1.extractLsb' 0 16,
      s.regs.req1.extractLsb' 16 16⟩ → RequestLegal s.inst q →
    ∃ t p, exec .goCmd s = .next t ∧ RequestPayload s.regs.win q p ∧
      TxHolds (encodeFrame q.unit q.fc p) s t ∧
      t.regs = { s.regs with result := ⟨.pending, none, 0#8, 0#8⟩ } ∧
      t.client = ⟨.sending, q, s.regs.retry, s.regs.retry, s.client.respElapsed⟩ ∧
      (s.cfg.t35.toNat ≤ s.sil.toNat →
        t.tx.active = true ∧ t.tx.idx = 0#9 ∧ t.rx = { s.rx with en := false }) ∧
      (s.sil.toNat < s.cfg.t35.toNat → t.tx.active = false ∧ t.tx.idx = s.tx.idx ∧ t.rx = s.rx) ∧
      t.mem = s.mem ∧ t.isOpen = s.isOpen ∧ t.cfg = s.cfg ∧ t.sstate = s.sstate ∧ t.sil = s.sil ∧
      t.rstN = s.rstN ∧ t.inst = s.inst ∧ t.inputs = s.inputs ∧ t.out = s.out

/-- `GO` turned away: closed, in server role or busy, with a request that cannot be encoded (R296, R363, R408). -/
def Obligations.GoTurnedAway : Prop :=
  ∀ s : State,
    (s.isOpen = false → exec .goCmd s = .next { s with regs := { s.regs with
      result := ⟨.transportError, none, 0#8, 0#8⟩, tcause := .notOpen, evt := s.regs.evt ||| 0x09#5 } }) ∧
    (s.isOpen = true → (s.cfg.role = .server ∨ s.client.state ≠ .idle) →
      exec .goCmd s = .next { s with regs := { s.regs with evt := s.regs.evt ||| 0x10#5 } }) ∧
    (s.isOpen = true → s.cfg.role = .client → s.client.state = .idle →
      ¬RequestLegal s.inst ⟨s.regs.req0.extractLsb' 0 8, s.regs.req0.extractLsb' 8 8,
        s.regs.req1.extractLsb' 0 16, s.regs.req1.extractLsb' 16 16⟩ →
      exec .goCmd s = .next { s with regs := { s.regs with
        result := ⟨.rejected, none, 0#8, 0#8⟩, evt := s.regs.evt ||| 0x11#5 } })

/-- `DSGO` completes as a read: the elements of the range are in `DSWIN`, zero-extended, and nothing else changes (R70, R370). -/
def Obligations.DsgoReadsTheRange : Prop :=
  ∀ (s : State) (a n : Nat), Canonical s → s.regs.dsWr = false → a = s.regs.dsStart.toNat →
    n = s.regs.dsCount.toNat → 1 ≤ n → n ≤ 125 →
    ∀ row ∈ [(0#2, s.inst.nCoils, fun k => (readCell s.mem.coils k).setWidth 16),
        (1#2, s.inst.nDi, fun k => (readCell s.mem.di k).setWidth 16),
        (2#2, s.inst.nHr, fun k => readCell s.mem.hr k), (3#2, s.inst.nIr, fun k => readCell s.mem.ir k)],
      s.regs.dsTable = row.1 → a + n ≤ row.2.1 →
      ∃ win, exec .dsgoCmd s = .next { s with regs := { s.regs with dsErr := false, dswin := win } } ∧
        (∀ i, i < n → readCell win i = row.2.2 (a + i)) ∧
        ∀ i, n ≤ i → readCell win i = readCell s.regs.dswin i

/-- `DSGO` completes as a write: the elements of the range take the words of `DSWIN` (bit 0 for a bit table), all else in the Data Store
is unchanged (R71, R370). -/
def Obligations.DsgoWritesTheRange : Prop :=
  ∀ (s : State) (a n : Nat), Canonical s → s.regs.dsWr = true → a = s.regs.dsStart.toNat →
    n = s.regs.dsCount.toNat → 1 ≤ n → n ≤ 125 →
    (∀ row ∈ [(0#2, s.inst.nCoils, s.mem.coils, fun c : Cells 1 => { s.mem with coils := c }),
        (1#2, s.inst.nDi, s.mem.di, fun c : Cells 1 => { s.mem with di := c })],
      s.regs.dsTable = row.1 → a + n ≤ row.2.1 →
      ∃ c, exec .dsgoCmd s = .next { s with mem := row.2.2.2 c, regs := { s.regs with dsErr := false } } ∧
        (∀ i, i < n → readCell c (a + i) = (readCell s.regs.dswin i).extractLsb' 0 1) ∧
        ∀ k, k < a ∨ a + n ≤ k → readCell c k = readCell row.2.2.1 k) ∧
    (∀ row ∈ [(2#2, s.inst.nHr, s.mem.hr, fun c : Cells 16 => { s.mem with hr := c }),
        (3#2, s.inst.nIr, s.mem.ir, fun c : Cells 16 => { s.mem with ir := c })],
      s.regs.dsTable = row.1 → a + n ≤ row.2.1 →
      ∃ c, exec .dsgoCmd s = .next { s with mem := row.2.2.2 c, regs := { s.regs with dsErr := false } } ∧
        (∀ i, i < n → readCell c (a + i) = readCell s.regs.dswin i) ∧
        ∀ k, k < a ∨ a + n ≤ k → readCell c k = readCell row.2.2.1 k)

/-- `DSGO` with a count of 0, above 125, or a range outside the table sets `ds_err` and touches nothing else (R69, R370). -/
def Obligations.DsgoRejectsIllegalRange : Prop :=
  ∀ (s : State) (size : Nat),
    ((s.regs.dsTable = 0#2 ∧ size = s.inst.nCoils) ∨ (s.regs.dsTable = 1#2 ∧ size = s.inst.nDi) ∨
      (s.regs.dsTable = 2#2 ∧ size = s.inst.nHr) ∨ (s.regs.dsTable = 3#2 ∧ size = s.inst.nIr)) →
    (s.regs.dsCount.toNat = 0 ∨ 125 < s.regs.dsCount.toNat ∨
      size < s.regs.dsStart.toNat + s.regs.dsCount.toNat) →
    exec .dsgoCmd s = .next { s with regs := { s.regs with dsErr := true } }

/-- A write of `EVT` clears exactly the flags whose bits are 1 and changes nothing else; nothing but that write and `Reset` clears a
flag (R374). -/
def Obligations.EvtClearClearsExactly : Prop :=
  (∀ (s : State) (m : BitVec 5), ∃ e : BitVec 5,
    exec (.evtClear m) s = .next { s with regs := { s.regs with evt := e } } ∧
    ∀ i, i < 5 → e.getLsbD i = (s.regs.evt.getLsbD i && !m.getLsbD i)) ∧
  ∀ (s t : State), step s = .next t →
    (∀ (v : Reg) (rest : List Event), s.inputs ≠ .csrWrite 0x02 v :: rest) →
    (∀ rest : List Event, s.inputs ≠ .reset :: rest) →
    ∀ i, i < 5 → s.regs.evt.getLsbD i = true → t.regs.evt.getLsbD i = true

/-! ## Steps -/

/-- A step with a host instruction as the next event runs that instruction (R361). -/
def Obligations.StepRunsHostInstruction : Prop :=
  ∀ (s : State) (n : Nat) (v : Reg) (rest : List Event) (i : Instr), s.rstN = true →
    s.inputs = .csrWrite n v :: rest → decode (.csrWrite n v) = .ok [i] →
    step s = exec i { s with inputs := rest, out := .nothing }

/-- On the idle tick that ends a frame, the step runs the instruction the frame decodes to, on the state whose counters have
advanced and whose receiver is idle, and then the client's checks (R190, R193). -/
def Obligations.StepRunsFrameInstruction : Prop :=
  ∀ (s : State) (rest : List Event) (i : Instr), s.rstN = true → s.inputs = .idleTick :: rest →
    s.isOpen = true → s.tx.active = false → s.rx.en = true → s.rx.state = .ctrlWait →
    s.rx.overrun = false → s.rx.charErr = false → s.rx.gap = false →
    decode (.frame (readCells s.rx.buf 0 s.rx.len.toNat)) = .ok [i] → s.cfg.t35.toNat ≤ s.sil.toNat + 1 →
    ∃ sil : BitVec 32, sil.toNat = min (s.sil.toNat + 1) 4294967295 ∧
      step s = andThen
        (exec i { s with
          inputs := rest
          out := .nothing
          sil := sil
          rx := { s.rx with state := .idle }
          client := if s.client.state = .await then
            { s.client with respElapsed := s.client.respElapsed + 1#32 } else s.client })
        fun t => .next (clientTick t)

/-- The commands of one write to `CTRL` run in the order `CLOSE`, `OPEN`, `CRCINIT`, `DSGO`, `GO` inside the one step (R363). -/
def Obligations.CommandsRunInOrder : Prop :=
  ∀ (s : State) (v : Reg) (rest : List Event), s.rstN = true → s.inputs = .csrWrite 0 v :: rest →
    step s =
      andThen (if v.getLsbD 1 then exec .closeCmd { s with inputs := rest, out := .nothing }
        else .next { s with inputs := rest, out := .nothing }) fun s1 =>
      andThen (if v.getLsbD 0 then exec .openCmd s1 else .next s1) fun s2 =>
      andThen (if v.getLsbD 4 then exec .crcInit s2 else .next s2) fun s3 =>
      andThen (if v.getLsbD 3 then exec .dsgoCmd s3 else .next s3) fun s4 =>
      if v.getLsbD 2 then exec .goCmd s4 else .next s4

/-- No step faults or refuses, from any state: the block never stops (R232, R339, R401). -/
def Obligations.EveryStepAnswers : Prop :=
  ∀ s : State, ∃ t, step s = .next t

/-- The invariant holds after reset, for every instance (R58). -/
def Obligations.ResetMeetsTheInvariant : Prop :=
  ∀ p : Params, Config.legal p = true → Inv (State.resetOf p)

/-- Every step keeps the invariant of the block (R25 to R27, R32, R57, R169, R291, R337; its clause for
a low `rst_n` has the frame buffers at the model's 0, log 4). -/
def Obligations.StepKeepsTheInvariant : Prop :=
  ∀ s t : State, Inv s → step s = .next t → Inv t

/-- Every step keeps the canonical form of tables, windows and buffers (log 10), from any state that has it. -/
def Obligations.StepKeepsCanonicalForm : Prop :=
  ∀ s t : State, Canonical s → step s = .next t → Canonical t

/-- While the block is closed line events change no state; a session starts from `sil = 0` (R192). A step with no event listed is the
block's own `TxChar` (the model's choice, log 1), and the line events include characters given by samples (log 14). -/
def Obligations.ClosedBlockIgnoresTheLine : Prop :=
  ∀ (s : State), s.isOpen = false →
    (∀ (e : Event) (rest : List Event), s.inputs = e :: rest → isLineEvent e = true →
      step s = .next { s with inputs := rest, out := .nothing }) ∧
    (s.inputs = [] → step s = .next { s with out := .nothing }) ∧
    ∀ t : State, exec .openCmd s = .next t → t.isOpen = true → t.sil = 0#32

/-- What a line event can never change: the session and its configuration (a property the spec marks as its own inference, R339 and
R366), the input tables (R266), every stored register but `EVT`, `RESULT`, `SRVSTAT` and `WIN` (R420; `STATUS`,
assembled from state on every read, R32, is none); it clears no flag (R374), sets neither
`EVT.TERR` nor `EVT.CMDREJ` (R363, R408), and in client role leaves the Data Store alone. The line events include characters given by
samples (log 14). -/
def Obligations.LineEventsRespectTheHost : Prop :=
  ∀ (s t : State) (e : Event) (rest : List Event), s.inputs = e :: rest → isLineEvent e = true → step s = .next t →
    t.isOpen = s.isOpen ∧ t.cfg = s.cfg ∧ t.inst = s.inst ∧ t.rstN = s.rstN ∧ t.inputs = rest ∧
    t.mem.di = s.mem.di ∧ t.mem.ir = s.mem.ir ∧ (s.cfg.role = .client → t.mem = s.mem) ∧
    t.regs = { s.regs with
      evt := t.regs.evt, result := t.regs.result, srv := t.regs.srv, win := t.regs.win } ∧
    s.regs.evt &&& ~~~t.regs.evt = 0#5 ∧ t.regs.evt &&& 0x18#5 = s.regs.evt &&& 0x18#5

/-- A frame that fails its tests is dropped by the server: recorded, nothing sent, nothing else changed (R331, R195). -/
def Obligations.ServerDropsBadFrames : Prop :=
  ∀ (s : State) (rest : List Event) (k : FrameError), s.rstN = true → s.inputs = .idleTick :: rest →
    s.isOpen = true → s.tx.active = false → s.cfg.role = .server → s.client.state = .idle →
    s.rx.en = true → s.rx.state = .ctrlWait → s.cfg.t35.toNat ≤ s.sil.toNat + 1 →
    decodeFrame s.rx.overrun s.rx.charErr s.rx.gap (readCells s.rx.buf 0 s.rx.len.toNat) = .error k →
    ∃ sil : BitVec 32, sil.toNat = min (s.sil.toNat + 1) 4294967295 ∧
      step s = .next { s with
        inputs := rest
        out := .nothing
        sil := sil
        rx := { s.rx with state := .idle }
        regs := { s.regs with
          evt := s.regs.evt ||| 0x04#5
          srv := { s.regs.srv with lastFerr := some k } } }

/-- An `IdleTick` that ends no frame, closes no response window and starts no transmission (R190): the silence counter advances,
saturating, and with it the response timer of a waiting client; `RX_INIT` ends after `cfg.t35` ticks of silence, a frame's characters
after `cfg.t15`; a receiver that is off stays as it is. -/
def Obligations.SilenceMovesTheReceiver : Prop :=
  ∀ (s : State) (rest : List Event), s.rstN = true → s.inputs = .idleTick :: rest → s.isOpen = true →
    s.tx.active = false → s.client.state ≠ .sending → ¬FrameEnds s.cfg (min (s.sil.toNat + 1) 4294967295) s.rx →
    (s.client.state = .await → s.client.respElapsed.toNat + 1 < s.cfg.tmo.toNat) →
    ∃ (sil elapsed : BitVec 32) (r : Rx), sil.toNat = min (s.sil.toNat + 1) 4294967295 ∧
      (s.client.state = .await → elapsed.toNat = s.client.respElapsed.toNat + 1) ∧
      (s.client.state ≠ .await → elapsed = s.client.respElapsed) ∧
      ReceiverTicks s.cfg sil.toNat s.rx r ∧
      step s = .next { s with
        inputs := rest
        out := .nothing
        sil := sil
        rx := r
        client := { s.client with respElapsed := elapsed } }

/-- A frame to this unit whose function code is not implemented (one of the other 248 values, or an extension code that is not
present) is answered `ILLEGAL_FUNCTION` on the tick that ends it, whatever the payload; no table changes (R119, R120, R222). -/
def Obligations.UnimplementedFunctionIsAnswered : Prop :=
  ∀ (s : State) (rest : List Event) (fc : Byte) (p : List Byte), Canonical s → s.rstN = true →
    s.inputs = .idleTick :: rest → s.tx.active = false → Serving s.cfg.unit s → s.client.state = .idle →
    s.rx.state = .ctrlWait → s.cfg.t35.toNat ≤ s.sil.toNat + 1 →
    decodeFrame s.rx.overrun s.rx.charErr s.rx.gap (readCells s.rx.buf 0 s.rx.len.toNat) =
      .ok ⟨s.cfg.unit, fc, p⟩ →
    fc ∉ [0x01#8, 0x03#8, 0x05#8, 0x06#8] →
    (s.inst.extFc = false ∨ fc ∉ [0x02#8, 0x04#8, 0x0F#8, 0x10#8]) →
    ∃ (sil : BitVec 32) (t : State), sil.toNat = min (s.sil.toNat + 1) 4294967295 ∧ step s = .next t ∧
      AnsweredException fc 0x01#8
        { s with inputs := rest, out := .nothing, sil := sil, rx := { s.rx with state := .idle } } t ∧
      (0x80 ≤ fc.toNat → fc ||| 0x80#8 = fc)

/-- The response window closes (R300, R304, R306), on an idle tick that ends no frame or at the end of a character, whatever frame is being
received: it is abandoned, the request is sent again while retries are left, else the exchange ends with `TIMEOUT`. -/
def Obligations.TimeoutRetriesOrFails : Prop :=
  ∀ (s : State) (rest : List Event), Canonical s → s.rstN = true → Awaiting s → s.tx.active = false →
    (s.inputs = .idleTick :: rest → ¬FrameEnds s.cfg (min (s.sil.toNat + 1) 4294967295) s.rx →
      s.cfg.tmo.toNat ≤ s.client.respElapsed.toNat + 1 → s.client.respElapsed.toNat + 1 < 4294967296 →
      ∃ (sil elapsed : BitVec 32) (r : Rx) (u : State), sil.toNat = min (s.sil.toNat + 1) 4294967295 ∧
        elapsed.toNat = s.client.respElapsed.toNat + 1 ∧ ReceiverTicks s.cfg sil.toNat s.rx r ∧
        u = { s with
          inputs := rest
          out := .nothing
          sil := sil
          rx := r
          client := { s.client with respElapsed := elapsed } } ∧
        RetriesOrFails .timeout none 0#5 u (step s)) ∧
    ∀ (b : Byte) (err : Bool), s.inputs = .rxChar b err :: rest →
      s.cfg.tmo.toNat ≤ s.client.respElapsed.toNat + s.cfg.cb.toNat →
      s.client.respElapsed.toNat + s.cfg.cb.toNat < 4294967296 →
      ∃ (elapsed : BitVec 32) (r : Rx) (u : State),
        elapsed.toNat = s.client.respElapsed.toNat + s.cfg.cb.toNat ∧ ReceiverTakes b err s.rx r ∧
        u = { s with
          inputs := rest
          out := .nothing
          sil := 0#32
          rx := r
          client := { s.client with respElapsed := elapsed } } ∧
        RetriesOrFails .timeout none 0#5 u (step s)

/-- A character of a frame other than the last is sent (R186, R159). That a step with no event listed is this event is the model's choice
(log 1). -/
def Obligations.TxCharSendsTheNextByte : Prop :=
  ∀ (s : State) (rest : List Event), s.rstN = true →
    (s.inputs = .txChar :: rest ∨ (s.inputs = [] ∧ rest = [])) → s.isOpen = true → s.tx.active = true →
    s.tx.idx + 1#9 ≠ s.tx.len →
    step s = .next { s with
      inputs := rest
      out := .txChar (readCell s.tx.buf s.tx.idx.toNat)
        (charBits s.cfg.parity s.cfg.stop2 (readCell s.tx.buf s.tx.idx.toNat))
      tx := { s.tx with idx := s.tx.idx + 1#9 }
      sil := 0#32 }

/-- The last character of a frame ends the transmission: the server listens again with the receiver armed in `RX_IDLE`; the client
awaits the response, or after a broadcast has its result (R186, R299, R336, R189). -/
def Obligations.LastCharacterEndsTransmission : Prop :=
  ∀ (s : State) (rest : List Event), s.rstN = true → s.inputs = .txChar :: rest → s.isOpen = true →
    s.tx.active = true → s.tx.idx + 1#9 = s.tx.len →
    ∃ u : State, u = { s with
        inputs := rest
        out := .txChar (readCell s.tx.buf s.tx.idx.toNat)
          (charBits s.cfg.parity s.cfg.stop2 (readCell s.tx.buf s.tx.idx.toNat))
        tx := { s.tx with idx := s.tx.len, active := false }
        sil := 0#32 } ∧
      (s.cfg.role = .server → step s = .next { u with
        sstate := .listen
        rx := { s.rx with
          en := true, state := .idle, len := 0#9, overrun := false, charErr := false, gap := false } }) ∧
      (s.cfg.role = .client → s.client.rq.unit ≠ 0#8 → step s = .next { u with
        client := { s.client with state := .await, respElapsed := 0#32 }
        rx := { s.rx with
          en := true, state := .idle, len := 0#9, overrun := false, charErr := false, gap := false } }) ∧
      (s.cfg.role = .client → s.client.rq.unit = 0#8 → step s = .next { u with
        client := { s.client with state := .idle }
        regs := { s.regs with
          result := ⟨.ok, none, 0#8, s.client.retryBound - s.client.retryLeft⟩
          evt := s.regs.evt ||| 0x01#5 } })

/-- A client with a frame waiting starts to send on the tick on which the line has been silent for `cfg.t35` ticks, not earlier
(R298, R300). -/
def Obligations.ClientSendsAfterSilence : Prop :=
  ∀ (s : State) (rest : List Event), s.rstN = true → s.inputs = .idleTick :: rest → s.isOpen = true →
    s.tx.active = false → s.rx.en = false → s.client.state = .sending →
    ∃ sil : BitVec 32, sil.toNat = min (s.sil.toNat + 1) 4294967295 ∧
      step s = .next { s with
        inputs := rest
        out := .nothing
        sil := sil
        tx := if s.cfg.t35.toNat ≤ sil.toNat then { s.tx with idx := 0#9, active := true } else s.tx }

/-- What a character does that closes no response window (R191), given by its byte and error flag or by its samples (R158; log 14): it
clears the silence counter, advances the response timer of a waiting client by `cfg.cb`, and is taken by the receiver when that is on. -/
def Obligations.ReceiverStoresCharacters : Prop :=
  ∀ (s : State) (rest : List Event) (b : Byte) (err : Bool), Canonical s → s.rstN = true →
    (s.inputs = .rxChar b err :: rest ∨
      ∃ samples, s.inputs = .rxLine samples :: rest ∧ sampledChar s.cfg.parity samples = (b, err)) →
    s.isOpen = true → s.tx.active = false →
    (s.client.state = .await → s.client.respElapsed.toNat + s.cfg.cb.toNat < s.cfg.tmo.toNat) →
    ∃ (elapsed : BitVec 32) (r : Rx),
      (s.client.state = .await → elapsed.toNat = s.client.respElapsed.toNat + s.cfg.cb.toNat) ∧
      (s.client.state ≠ .await → elapsed = s.client.respElapsed) ∧
      ReceiverTakes b err s.rx r ∧
      step s = .next { s with
        inputs := rest
        out := .nothing
        sil := 0#32
        rx := r
        client := { s.client with respElapsed := elapsed } }

/-- Round trip over the line (R200, which the spec marks as derived): a frame sent as characters with gaps below `T15` to an armed
receiver on an idle line, followed by silence, is the frame the receiver has when the silence is one tick short of `T35`. -/
def Obligations.FrameArrivesWhole : Prop :=
  ∀ (s : State) (l : List (Nat × Byte)) (a fc : Byte) (p : List Byte) (rest : List Event), Inv s →
    s.rstN = true → s.cfg.role = .server → s.rx.en = true → s.rx.state = .idle → p.length ≤ 252 →
    l.map Prod.snd = encodeFrame a fc p → (∀ x ∈ l.tail, x.1 < s.cfg.t15.toNat) →
    s.inputs = lineScript l ++ List.replicate (s.cfg.t35.toNat - 1) .idleTick ++ rest →
    runsTo ((lineScript l).length + (s.cfg.t35.toNat - 1)) s fun t =>
      decodeFrame t.rx.overrun t.rx.charErr t.rx.gap (rxFrame t) = .ok ⟨a, fc, p⟩ ∧
      t.rx.state = .ctrlWait ∧ t.sil.toNat + 1 = t.cfg.t35.toNat ∧ t.inputs = rest ∧
      t.mem = s.mem ∧ t.regs = s.regs ∧ t.cfg = s.cfg

/-- `Reset` puts every item of state at its reset value and `rst_n` low; while it is low every event but its rise is ignored (R42, R56,
R58, R440; the level and its rise are log 5). -/
def Obligations.ResetEventResetsTheBlock : Prop :=
  ∀ (s : State) (e : Event) (rest : List Event), s.inputs = e :: rest →
    (e = .reset → ∃ t, step s = .next t ∧ t.rstN = false ∧ t.inputs = rest ∧ t.inst = s.inst ∧
      t.regs = {
        evt := 0#5, ien := 0#5, baud := 0#24, line := 0x08#7, timeoutMs := 1000#16, ift := 0#16, mode := 0x02#2
        unit := 0#8, retry := 0#8, req0 := 0#16, req1 := 0#32, result := ⟨.none, none, 0#8, 0#8⟩, dsTable := 0#2
        dsWr := false, dsStart := 0#16, dsCount := 0#8, dsErr := false, tcause := .none, hcrc := 0xFFFF#16
        srv := ⟨none, 0#8, 0#8, false⟩, win := t.regs.win, dswin := t.regs.dswin } ∧
      (∀ i, readCell t.regs.win i = 0#16 ∧ readCell t.regs.dswin i = 0#16) ∧
      t.cfg = {
        baud := 0#24, parity := 0#2, stop2 := false, role := .client, bcastEn := false, unit := 0#8, cb := 0#4
        t15 := 0#5, t35 := 0#16, tmo := 0#32 } ∧
      t.client = {
        state := .idle, rq := ⟨0#8, 0#8, 0#16, 0#16⟩, retryBound := 0#8, retryLeft := 0#8, respElapsed := 0#32 } ∧
      t.isOpen = false ∧ t.sstate = .listen ∧ t.sil = 0#32 ∧ t.rx.state = .init ∧ t.rx.en = false ∧ t.rx.len = 0#9 ∧
      t.rx.overrun = false ∧ t.rx.charErr = false ∧ t.rx.gap = false ∧ t.tx.len = 0#9 ∧ t.tx.idx = 0#9 ∧
      t.tx.active = false ∧ t.irq = false ∧ t.txEn = false ∧ t.txd = [true] ∧
      ∀ a, readCell t.mem.coils a = 0#1 ∧ readCell t.mem.di a = 0#1 ∧ readCell t.mem.hr a = 0#16 ∧
        readCell t.mem.ir a = 0#16) ∧
    (s.rstN = false → e ≠ .reset → e ≠ .rstRise → step s = .next { s with inputs := rest, out := .nothing }) ∧
    (e = .rstRise → step s = .next { s with inputs := rest, out := .nothing, rstN := true })

/-- What a host reads of every register after reset (R31). -/
def Obligations.RegistersReadTheirResetValues : Prop :=
  ∀ (p : Params) (n : Nat), readReg n (State.resetOf p) =
    if n = 0x05 then 0x00000008#32 else if n = 0x06 then 0x000003E8#32 else if n = 0x08 then 0x00000002#32
    else if n = 0x12 then 0x0000FFFF#32 else 0#32

/-- A `CsrRead` returns the register and changes no state (R362). Every register of the map reads its stored fields, reserved bits 0, with
the numbers the spec gives the states, causes, result codes and FrameError kinds (R25 to R27, R30, R32, R45, R48, R196); write-only,
command and reserved numbers read 0 (R31, R49). -/
def Obligations.ReadsReturnTheFields : Prop :=
  ∀ s : State,
    (∀ (n : Nat) (rest : List Event), s.rstN = true → s.inputs = .csrRead n :: rest →
      step s = .next { s with inputs := rest, out := .readData (readReg n s) }) ∧
    ((readReg 0x01 s).getLsbD 0 = s.isOpen ∧
      (readReg 0x01 s).getLsbD 1 =
        (decide (s.client.state ≠ .idle) || decide (s.sstate ≠ .listen) || s.tx.active) ∧
      (readReg 0x01 s).getLsbD 2 = decide (s.cfg.role = .server) ∧
      (readReg 0x01 s).getLsbD 3 = s.tx.active ∧
      (∀ x ∈ [(CState.idle, 0#3), (.sending, 1#3), (.await, 2#3), (.matched, 3#3), (.timedOut, 4#3), (.crcErr, 5#3)],
        s.client.state = x.1 → (readReg 0x01 s).extractLsb' 4 3 = x.2) ∧
      (∀ x ∈ [(SState.listen, 0#2), (.dispatch, 1#2), (.respond, 2#2)],
        s.sstate = x.1 → (readReg 0x01 s).extractLsb' 8 2 = x.2) ∧
      (∀ x ∈ [(RxState.init, 0#2), (.idle, 1#2), (.recv, 2#2), (.ctrlWait, 3#2)],
        s.rx.state = x.1 → (readReg 0x01 s).extractLsb' 12 2 = x.2) ∧
      (readReg 0x01 s).getLsbD 14 = s.rx.en ∧
      (∀ x ∈ [(TCause.none, 0#4), (.badConfig, 1#4), (.closedInFlight, 2#4), (.notOpen, 3#4)],
        s.regs.tcause = x.1 → (readReg 0x01 s).extractLsb' 16 4 = x.2) ∧
      (∀ i ∈ [7, 10, 11, 15, 20, 21, 22, 23, 24, 25, 26, 27, 28, 29, 30, 31], (readReg 0x01 s).getLsbD i = false)) ∧
    ((∀ x ∈ [(ResultCode.none, 0#4), (.ok, 1#4), (.protocolException, 2#4), (.timeout, 3#4),
          (.corruptedResponse, 4#4), (.transportError, 5#4), (.rejected, 6#4), (.pending, 7#4)],
        s.regs.result.code = x.1 → (readReg 0x0D s).extractLsb' 0 4 = x.2) ∧
      (∀ x ∈ [((none : Option FrameError), 0#4), (some .crcMismatch, 1#4), (some .truncated, 2#4),
          (some .charError, 3#4), (some .overrun, 4#4), (some .badPdu, 5#4)],
        (s.regs.result.ferr = x.1 → (readReg 0x0D s).extractLsb' 4 4 = x.2) ∧
        (s.regs.srv.lastFerr = x.1 → (readReg 0x13 s).extractLsb' 0 4 = x.2)) ∧
      (readReg 0x0D s).extractLsb' 8 8 = s.regs.result.exc ∧
      (readReg 0x0D s).extractLsb' 16 8 = s.regs.result.resends ∧
      (readReg 0x0D s).extractLsb' 24 8 = 0#8 ∧
      (readReg 0x13 s).extractLsb' 4 4 = 0#4 ∧
      (readReg 0x13 s).extractLsb' 8 8 = s.regs.srv.lastExc ∧
      (readReg 0x13 s).extractLsb' 16 8 = s.regs.srv.lastFc ∧
      (readReg 0x13 s).getLsbD 24 = s.regs.srv.lastBcast ∧
      (readReg 0x13 s).extractLsb' 25 7 = 0#7) ∧
    ((readReg 0x02 s).toNat = s.regs.evt.toNat ∧ (readReg 0x03 s).toNat = s.regs.ien.toNat ∧
      (readReg 0x04 s).toNat = s.regs.baud.toNat ∧ (readReg 0x05 s).toNat = s.regs.line.toNat ∧
      (readReg 0x06 s).toNat = s.regs.timeoutMs.toNat ∧ (readReg 0x07 s).toNat = s.regs.ift.toNat ∧
      (readReg 0x08 s).toNat = s.regs.mode.toNat ∧ (readReg 0x09 s).toNat = s.regs.unit.toNat ∧
      (readReg 0x0A s).toNat = s.regs.retry.toNat ∧ (readReg 0x0B s).toNat = s.regs.req0.toNat ∧
      readReg 0x0C s = s.regs.req1 ∧
      (readReg 0x0E s).extractLsb' 0 2 = s.regs.dsTable ∧ (readReg 0x0E s).getLsbD 2 = s.regs.dsWr ∧
      (readReg 0x0E s).extractLsb' 3 13 = 0#13 ∧ (readReg 0x0E s).extractLsb' 16 16 = s.regs.dsStart ∧
      (readReg 0x0F s).toNat = s.regs.dsCount.toNat ∧
      readReg 0x10 s = (if s.regs.dsErr then 1#32 else 0#32) ∧ (readReg 0x12 s).toNat = s.regs.hcrc.toNat ∧
      (∀ i, i < 125 → (readReg (0x100 + i) s).toNat = (readCell s.regs.win i).toNat) ∧
      (∀ i, i < 125 → (readReg (0x200 + i) s).toNat = (readCell s.regs.dswin i).toNat) ∧
      ∀ n, n = 0x00 ∨ n = 0x11 ∨ (0x14 ≤ n ∧ n < 0x100) ∨ (0x17D ≤ n ∧ n < 0x200) ∨ 0x27D ≤ n →
        readReg n s = 0#32)

/-- A host write to a register other than `CTRL`, `EVT` and `CRC_DATA` stores the register's fields and changes nothing else: not the
running session (R42, R49, R361, R460). -/
def Obligations.PlainWritesStoreTheirFields : Prop :=
  ∀ (s : State) (n : Nat) (v : Reg) (rest : List Event), s.rstN = true → s.inputs = .csrWrite n v :: rest →
    n ≠ 0x00 → n ≠ 0x02 → n ≠ 0x11 →
    ∃ r : Regs, step s = .next { s with inputs := rest, out := .nothing, regs := r } ∧
      (n = 0x03 → r = { s.regs with ien := v.extractLsb' 0 5 }) ∧
      (n = 0x04 → r = { s.regs with baud := v.extractLsb' 0 24 }) ∧
      (n = 0x05 → r = { s.regs with line := v.extractLsb' 0 7 }) ∧
      (n = 0x06 → r = { s.regs with timeoutMs := v.extractLsb' 0 16 }) ∧
      (n = 0x07 → r = { s.regs with ift := v.extractLsb' 0 16 }) ∧
      (n = 0x08 → r = { s.regs with mode := v.extractLsb' 0 2 }) ∧
      (n = 0x09 → r = { s.regs with unit := v.extractLsb' 0 8 }) ∧
      (n = 0x0A → r = { s.regs with retry := v.extractLsb' 0 8 }) ∧
      (n = 0x0B → r = { s.regs with req0 := v.extractLsb' 0 16 }) ∧
      (n = 0x0C → r = { s.regs with req1 := v }) ∧
      (n = 0x0E → r = { s.regs with
        dsTable := v.extractLsb' 0 2, dsWr := v.getLsbD 2, dsStart := v.extractLsb' 16 16 }) ∧
      (n = 0x0F → r = { s.regs with dsCount := v.extractLsb' 0 8 }) ∧
      (∀ i, i < 125 → n = 0x100 + i → r = { s.regs with win := writeCell s.regs.win i (v.extractLsb' 0 16) }) ∧
      (∀ i, i < 125 → n = 0x200 + i →
        r = { s.regs with dswin := writeCell s.regs.dswin i (v.extractLsb' 0 16) }) ∧
      ((n = 0x01 ∨ n = 0x0D ∨ n = 0x10 ∨ n = 0x12 ∨ (0x14 ≤ n ∧ n < 0x100) ∨ n = 0x13 ∨
        (0x17D ≤ n ∧ n < 0x200) ∨ 0x27D ≤ n) → r = s.regs)

/-- The interrupt line is 1 exactly when some flag is set and enabled (R375). -/
def Obligations.IrqFollowsEnabledFlags : Prop :=
  ∀ s : State, s.irq = true ↔ ∃ i, i < 5 ∧ s.regs.evt.getLsbD i = true ∧ s.regs.ien.getLsbD i = true
end

