-- ==== Sys2Proof/Laws/Cells.lean ====
section
/-! SUPPORT. The laws of tables, windows and buffers: read after write, the canonical form, the bounds. -/

namespace Sys2Proof.Machine

variable {w : Nat}

/-- The canonical form of a list with a first entry. -/
theorem cellsWf_cons (x : Nat × BitVec w) (c : Cells w) :
    cellsWf (x :: c) = true ↔ x.2 ≠ 0#w ∧ (∀ y ∈ c, x.1 < y.1) ∧ cellsWf c = true := by
  simp only [cellsWf, List.pairwise_cons, List.all_cons, Bool.and_eq_true, decide_eq_true_eq]
  tauto

@[simp] theorem cellsWf_nil : cellsWf ([] : Cells w) = true := by simp [cellsWf]

@[simp] theorem cellsBelow_nil (n : Nat) : cellsBelow ([] : Cells w) n = true := by simp [cellsBelow]

/-- An index below every listed one reads as 0. -/
theorem readCell_of_lt (c : Cells w) (a : Nat) (h : ∀ y ∈ c, a < y.1) : readCell c a = 0#w := by
  induction c with
  | nil => rfl
  | cons x r ih =>
    obtain ⟨k, v⟩ := x
    have hk : a < k := h (k, v) (by simp)
    have : k ≠ a := by omega
    simp only [readCell, this, if_false]
    exact ih fun y hy => h y (by simp [hy])

/-- Writing an index leaves every other index as it was, whatever the list. -/
theorem readCell_writeCell_ne (c : Cells w) (a b : Nat) (v : BitVec w) (h : b ≠ a) :
    readCell (writeCell c a v) b = readCell c b := by
  induction c with
  | nil =>
    simp only [writeCell]
    split
    · rfl
    · simp [readCell, Ne.symm h]
  | cons x r ih =>
    obtain ⟨k, y⟩ := x
    simp only [writeCell]
    split
    · split
      · rfl
      · simp [readCell, Ne.symm h]
    · split
      · rename_i _ hak
        subst hak
        split <;> simp [readCell, Ne.symm h]
      · simp only [readCell, ih]

/-- Writing an index of a canonical list makes it read as the value written. -/
theorem readCell_writeCell_same (c : Cells w) (a : Nat) (v : BitVec w) (h : cellsWf c = true) :
    readCell (writeCell c a v) a = v := by
  induction c with
  | nil =>
    simp only [writeCell]
    split
    · rename_i hv; simp [readCell, hv]
    · simp [readCell]
  | cons x r ih =>
    obtain ⟨k, y⟩ := x
    obtain ⟨_, hlt, hr⟩ := (cellsWf_cons _ _).1 h
    simp only [writeCell]
    split
    · rename_i hak
      split
      · rename_i hv
        rw [hv]
        exact readCell_of_lt _ _ fun z hz => by
          rcases List.mem_cons.1 hz with rfl | hz
          · exact hak
          · exact Nat.lt_trans hak (hlt z hz)
      · simp [readCell]
    · split
      · rename_i _ hak
        subst hak
        split
        · rename_i hv
          rw [hv]
          exact readCell_of_lt _ _ hlt
        · simp [readCell]
      · rename_i h1 h2
        have : k ≠ a := fun e => h2 e.symm
        simp only [readCell, this, if_false]
        exact ih hr

/-- Every entry of a written list is an old entry or the written one. -/
theorem mem_writeCell (c : Cells w) (a : Nat) (v : BitVec w) (y : Nat × BitVec w) (h : y ∈ writeCell c a v) :
    y ∈ c ∨ (y = (a, v) ∧ v ≠ 0#w) := by
  induction c with
  | nil =>
    simp only [writeCell] at h
    split at h
    · simp at h
    · right; exact ⟨by simpa using h, ‹_›⟩
  | cons x r ih =>
    obtain ⟨k, z⟩ := x
    simp only [writeCell] at h
    split at h
    · split at h
      · exact .inl h
      · rcases List.mem_cons.1 h with rfl | h
        · exact .inr ⟨rfl, ‹_›⟩
        · exact .inl h
    · split at h
      · split at h
        · exact .inl (by simp [h])
        · rcases List.mem_cons.1 h with rfl | h
          · exact .inr ⟨rfl, ‹_›⟩
          · exact .inl (by simp [h])
      · rcases List.mem_cons.1 h with rfl | h
        · exact .inl (by simp)
        · rcases ih h with h | h
          · exact .inl (by simp [h])
          · exact .inr h

/-- A write keeps the canonical form. -/
theorem cellsWf_writeCell (c : Cells w) (a : Nat) (v : BitVec w) (h : cellsWf c = true) :
    cellsWf (writeCell c a v) = true := by
  induction c with
  | nil =>
    simp only [writeCell]
    split
    · simp
    · rename_i hv
      exact (cellsWf_cons _ _).2 ⟨hv, by simp, cellsWf_nil⟩
  | cons x r ih =>
    obtain ⟨k, y⟩ := x
    obtain ⟨hy, hlt, hr⟩ := (cellsWf_cons _ _).1 h
    simp only [writeCell]
    split
    · rename_i hak
      split
      · exact h
      · rename_i hv
        refine (cellsWf_cons _ _).2 ⟨hv, ?_, h⟩
        intro z hz
        rcases List.mem_cons.1 hz with rfl | hz
        · exact hak
        · exact Nat.lt_trans hak (hlt z hz)
    · split
      · rename_i _ hak
        subst hak
        split
        · exact hr
        · rename_i hv
          exact (cellsWf_cons _ _).2 ⟨hv, hlt, hr⟩
      · rename_i h1 h2
        refine (cellsWf_cons _ _).2 ⟨hy, ?_, ih hr⟩
        intro z hz
        rcases mem_writeCell _ _ _ _ hz with hz | ⟨rfl, _⟩
        · exact hlt z hz
        · show k < a
          omega

/-- A write below a bound keeps the bound. -/
theorem cellsBelow_writeCell (c : Cells w) (a n : Nat) (v : BitVec w) (h : cellsBelow c n = true) (ha : a < n) :
    cellsBelow (writeCell c a v) n = true := by
  simp only [cellsBelow, List.all_eq_true, decide_eq_true_eq] at h ⊢
  intro y hy
  rcases mem_writeCell _ _ _ _ hy with hy | ⟨rfl, _⟩
  · exact h y hy
  · exact ha

@[simp] theorem readCells_length (c : Cells w) (a n : Nat) : (readCells c a n).length = n := by
  simp [readCells]

/-- Element `i` of a range. -/
theorem readCells_getD (c : Cells w) (a n i : Nat) (d : BitVec w) (h : i < n) :
    (readCells c a n).getD i d = readCell c (a + i) := by
  simp [readCells, List.getD_eq_getElem?_getD, List.getElem?_map, List.getElem?_range h]

/-- A sequence written leaves every index outside its range as it was. -/
theorem readCell_writeCells_outside (vs : List (BitVec w)) (c : Cells w) (a b : Nat)
    (h : b < a ∨ a + vs.length ≤ b) : readCell (writeCells c a vs) b = readCell c b := by
  induction vs generalizing c a with
  | nil => rfl
  | cons v r ih =>
    simp only [List.length_cons] at h
    rw [writeCells, ih _ _ (by omega), readCell_writeCell_ne _ _ _ _ (by omega)]

/-- A sequence written keeps the canonical form. -/
theorem cellsWf_writeCells (vs : List (BitVec w)) (c : Cells w) (a : Nat) (h : cellsWf c = true) :
    cellsWf (writeCells c a vs) = true := by
  induction vs generalizing c a with
  | nil => exact h
  | cons v r ih => exact ih _ _ (cellsWf_writeCell _ _ _ h)

/-- A sequence written below a bound keeps the bound. -/
theorem cellsBelow_writeCells (vs : List (BitVec w)) (c : Cells w) (a n : Nat) (h : cellsBelow c n = true)
    (ha : a + vs.length ≤ n) : cellsBelow (writeCells c a vs) n = true := by
  induction vs generalizing c a with
  | nil => exact h
  | cons v r ih =>
    simp only [List.length_cons] at ha
    exact ih _ _ (cellsBelow_writeCell _ _ _ _ h (by omega)) (by omega)

/-- A sequence written to a canonical list reads back element by element. -/
theorem readCell_writeCells_inside (vs : List (BitVec w)) (c : Cells w) (a i : Nat) (hc : cellsWf c = true)
    (h : i < vs.length) : readCell (writeCells c a vs) (a + i) = vs.getD i 0#w := by
  induction vs generalizing c a i with
  | nil => simp at h
  | cons v r ih =>
    cases i with
    | zero =>
      rw [writeCells, readCell_writeCells_outside _ _ _ _ (by omega)]
      simpa using readCell_writeCell_same c a v hc
    | succ i =>
      simp only [List.length_cons] at h
      have := ih (writeCell c a v) (a + 1) i (cellsWf_writeCell _ _ _ hc) (by omega)
      rw [writeCells, show a + (i + 1) = a + 1 + i by omega, this]
      simp

/-- A sequence written to a canonical list reads back whole. -/
theorem readCells_writeCells (vs : List (BitVec w)) (c : Cells w) (a : Nat) (hc : cellsWf c = true) :
    readCells (writeCells c a vs) a vs.length = vs := by
  apply List.ext_getElem
  · simp
  · intro i h1 h2
    have h3 : i < vs.length := h2
    have := readCell_writeCells_inside vs c a i hc h3
    simp only [readCells, List.getElem_map, List.getElem_range, this]
    simp [List.getD_eq_getElem?_getD, h3]

end Sys2Proof.Machine
end

