-- ==== Sys2Proof/Laws/Memory.lean ====
section
/-! SUPPORT. The Data Store: what the access primitives answer, and that they keep the canonical form. -/

namespace Sys2Proof.Machine

theorem Memory.reset_wf : Memory.reset.wf = true := by decide

theorem Memory.wf_iff (m : Memory) :
    m.wf = true ↔ cellsWf m.coils = true ∧ cellsWf m.di = true ∧ cellsWf m.hr = true ∧ cellsWf m.ir = true := by
  simp only [Memory.wf, Bool.and_eq_true]
  tauto

theorem bitCells_wf (m : Memory) (t : BitTable) (h : m.wf = true) : cellsWf (bitCells m t) = true := by
  have := (Memory.wf_iff m).1 h
  cases t
  · exact this.1
  · exact this.2.1

theorem regCells_wf (m : Memory) (t : RegTable) (h : m.wf = true) : cellsWf (regCells m t) = true := by
  have := (Memory.wf_iff m).1 h
  cases t
  · exact this.2.2.1
  · exact this.2.2.2

theorem withBitCells_wf (m : Memory) (t : BitTable) (c : Cells 1) (h : m.wf = true) (hc : cellsWf c = true) :
    (withBitCells m t c).wf = true := by
  have := (Memory.wf_iff m).1 h
  cases t <;> simp [withBitCells, Memory.wf_iff, hc, this]

theorem withRegCells_wf (m : Memory) (t : RegTable) (c : Cells 16) (h : m.wf = true) (hc : cellsWf c = true) :
    (withRegCells m t c).wf = true := by
  have := (Memory.wf_iff m).1 h
  cases t <;> simp [withRegCells, Memory.wf_iff, hc, this]

/-- `MemRead` of a 1-bit table answers exactly inside the table, with the elements of the range (R70). -/
theorem memReadBits_ok (p : Params) (m : Memory) (t : BitTable) (a n : Nat) (v : List (BitVec 1)) :
    memReadBits p m t a n = .ok v ↔ a + n ≤ bitSize p t ∧ v = readCells (bitCells m t) a n := by
  unfold memReadBits
  split <;> simp_all [eq_comm]

/-- `MemRead` of a 16-bit table answers exactly inside the table, with the elements of the range (R70). -/
theorem memReadRegs_ok (p : Params) (m : Memory) (t : RegTable) (a n : Nat) (v : List Word) :
    memReadRegs p m t a n = .ok v ↔ a + n ≤ regSize p t ∧ v = readCells (regCells m t) a n := by
  unfold memReadRegs
  split <;> simp_all [eq_comm]

/-- `MemWrite` of a 1-bit table answers exactly inside the table, with the range written (R71). -/
theorem memWriteBits_ok (p : Params) (m m' : Memory) (t : BitTable) (a : Nat) (vs : List (BitVec 1)) :
    memWriteBits p m t a vs = .ok m' ↔
      a + vs.length ≤ bitSize p t ∧ m' = withBitCells m t (writeCells (bitCells m t) a vs) := by
  unfold memWriteBits
  split <;> simp_all [eq_comm]

/-- `MemWrite` of a 16-bit table answers exactly inside the table, with the range written (R71). -/
theorem memWriteRegs_ok (p : Params) (m m' : Memory) (t : RegTable) (a : Nat) (vs : List Word) :
    memWriteRegs p m t a vs = .ok m' ↔
      a + vs.length ≤ regSize p t ∧ m' = withRegCells m t (writeCells (regCells m t) a vs) := by
  unfold memWriteRegs
  split <;> simp_all [eq_comm]

theorem memWriteBits_wf (p : Params) (m m' : Memory) (t : BitTable) (a : Nat) (vs : List (BitVec 1))
    (hm : m.wf = true) (h : memWriteBits p m t a vs = .ok m') : m'.wf = true := by
  obtain ⟨_, rfl⟩ := (memWriteBits_ok _ _ _ _ _ _).1 h
  exact withBitCells_wf _ _ _ hm (cellsWf_writeCells _ _ _ (bitCells_wf _ _ hm))

theorem memWriteRegs_wf (p : Params) (m m' : Memory) (t : RegTable) (a : Nat) (vs : List Word)
    (hm : m.wf = true) (h : memWriteRegs p m t a vs = .ok m') : m'.wf = true := by
  obtain ⟨_, rfl⟩ := (memWriteRegs_ok _ _ _ _ _ _).1 h
  exact withRegCells_wf _ _ _ hm (cellsWf_writeCells _ _ _ (regCells_wf _ _ hm))

end Sys2Proof.Machine
end

