-- ==== Sys2Proof/Laws/State.lean ====
section
/-! SUPPORT. One lemma per field of State for each named update: what the field is afterwards. -/

namespace Sys2Proof.Machine

variable (s : State)

@[simp] theorem State.setEvt_inst (f : BitVec 5) : (State.setEvt f s).inst = s.inst := rfl
@[simp] theorem State.setEvt_mem (f : BitVec 5) : (State.setEvt f s).mem = s.mem := rfl
@[simp] theorem State.setEvt_regs (f : BitVec 5) :
    (State.setEvt f s).regs =
      ({ s.regs with evt := s.regs.evt ||| f } : Regs) := rfl
@[simp] theorem State.setEvt_isOpen (f : BitVec 5) : (State.setEvt f s).isOpen = s.isOpen := rfl
@[simp] theorem State.setEvt_cfg (f : BitVec 5) : (State.setEvt f s).cfg = s.cfg := rfl
@[simp] theorem State.setEvt_rx (f : BitVec 5) : (State.setEvt f s).rx = s.rx := rfl
@[simp] theorem State.setEvt_tx (f : BitVec 5) : (State.setEvt f s).tx = s.tx := rfl
@[simp] theorem State.setEvt_client (f : BitVec 5) : (State.setEvt f s).client = s.client := rfl
@[simp] theorem State.setEvt_sstate (f : BitVec 5) : (State.setEvt f s).sstate = s.sstate := rfl
@[simp] theorem State.setEvt_sil (f : BitVec 5) : (State.setEvt f s).sil = s.sil := rfl
@[simp] theorem State.setEvt_rstN (f : BitVec 5) : (State.setEvt f s).rstN = s.rstN := rfl
@[simp] theorem State.setEvt_inputs (f : BitVec 5) : (State.setEvt f s).inputs = s.inputs := rfl
@[simp] theorem State.setEvt_out (f : BitVec 5) : (State.setEvt f s).out = s.out := rfl

@[simp] theorem setCState_inst (c : CState) : (setCState c s).inst = s.inst := rfl
@[simp] theorem setCState_mem (c : CState) : (setCState c s).mem = s.mem := rfl
@[simp] theorem setCState_regs (c : CState) : (setCState c s).regs = s.regs := rfl
@[simp] theorem setCState_isOpen (c : CState) : (setCState c s).isOpen = s.isOpen := rfl
@[simp] theorem setCState_cfg (c : CState) : (setCState c s).cfg = s.cfg := rfl
@[simp] theorem setCState_rx (c : CState) : (setCState c s).rx = s.rx := rfl
@[simp] theorem setCState_tx (c : CState) : (setCState c s).tx = s.tx := rfl
@[simp] theorem setCState_client (c : CState) :
    (setCState c s).client =
      ({ s.client with state := c } : Client) := rfl
@[simp] theorem setCState_sstate (c : CState) : (setCState c s).sstate = s.sstate := rfl
@[simp] theorem setCState_sil (c : CState) : (setCState c s).sil = s.sil := rfl
@[simp] theorem setCState_rstN (c : CState) : (setCState c s).rstN = s.rstN := rfl
@[simp] theorem setCState_inputs (c : CState) : (setCState c s).inputs = s.inputs := rfl
@[simp] theorem setCState_out (c : CState) : (setCState c s).out = s.out := rfl

@[simp] theorem finish_inst (r : Result) : (finish r s).inst = s.inst := rfl
@[simp] theorem finish_mem (r : Result) : (finish r s).mem = s.mem := rfl
@[simp] theorem finish_regs (r : Result) :
    (finish r s).regs =
      ({ s.regs with result := r, evt := s.regs.evt ||| evtDone } : Regs) := rfl
@[simp] theorem finish_isOpen (r : Result) : (finish r s).isOpen = s.isOpen := rfl
@[simp] theorem finish_cfg (r : Result) : (finish r s).cfg = s.cfg := rfl
@[simp] theorem finish_rx (r : Result) : (finish r s).rx = s.rx := rfl
@[simp] theorem finish_tx (r : Result) : (finish r s).tx = s.tx := rfl
@[simp] theorem finish_client (r : Result) : (finish r s).client = s.client := rfl
@[simp] theorem finish_sstate (r : Result) : (finish r s).sstate = s.sstate := rfl
@[simp] theorem finish_sil (r : Result) : (finish r s).sil = s.sil := rfl
@[simp] theorem finish_rstN (r : Result) : (finish r s).rstN = s.rstN := rfl
@[simp] theorem finish_inputs (r : Result) : (finish r s).inputs = s.inputs := rfl
@[simp] theorem finish_out (r : Result) : (finish r s).out = s.out := rfl

@[simp] theorem rxArm_inst (st : RxState) : (rxArm st s).inst = s.inst := rfl
@[simp] theorem rxArm_mem (st : RxState) : (rxArm st s).mem = s.mem := rfl
@[simp] theorem rxArm_regs (st : RxState) : (rxArm st s).regs = s.regs := rfl
@[simp] theorem rxArm_isOpen (st : RxState) : (rxArm st s).isOpen = s.isOpen := rfl
@[simp] theorem rxArm_cfg (st : RxState) : (rxArm st s).cfg = s.cfg := rfl
@[simp] theorem rxArm_rx (st : RxState) :
    (rxArm st s).rx =
      ({ s.rx with en := true, state := st, len := 0#9, overrun := false, charErr := false, gap := false } : Rx) := rfl
@[simp] theorem rxArm_tx (st : RxState) : (rxArm st s).tx = s.tx := rfl
@[simp] theorem rxArm_client (st : RxState) : (rxArm st s).client = s.client := rfl
@[simp] theorem rxArm_sstate (st : RxState) : (rxArm st s).sstate = s.sstate := rfl
@[simp] theorem rxArm_sil (st : RxState) : (rxArm st s).sil = s.sil := rfl
@[simp] theorem rxArm_rstN (st : RxState) : (rxArm st s).rstN = s.rstN := rfl
@[simp] theorem rxArm_inputs (st : RxState) : (rxArm st s).inputs = s.inputs := rfl
@[simp] theorem rxArm_out (st : RxState) : (rxArm st s).out = s.out := rfl

@[simp] theorem rxOff_inst : (rxOff s).inst = s.inst := rfl
@[simp] theorem rxOff_mem : (rxOff s).mem = s.mem := rfl
@[simp] theorem rxOff_regs : (rxOff s).regs = s.regs := rfl
@[simp] theorem rxOff_isOpen : (rxOff s).isOpen = s.isOpen := rfl
@[simp] theorem rxOff_cfg : (rxOff s).cfg = s.cfg := rfl
@[simp] theorem rxOff_rx : (rxOff s).rx = ({ s.rx with en := false } : Rx) := rfl
@[simp] theorem rxOff_tx : (rxOff s).tx = s.tx := rfl
@[simp] theorem rxOff_client : (rxOff s).client = s.client := rfl
@[simp] theorem rxOff_sstate : (rxOff s).sstate = s.sstate := rfl
@[simp] theorem rxOff_sil : (rxOff s).sil = s.sil := rfl
@[simp] theorem rxOff_rstN : (rxOff s).rstN = s.rstN := rfl
@[simp] theorem rxOff_inputs : (rxOff s).inputs = s.inputs := rfl
@[simp] theorem rxOff_out : (rxOff s).out = s.out := rfl

@[simp] theorem setRxState_inst (r : RxState) : (setRxState r s).inst = s.inst := rfl
@[simp] theorem setRxState_mem (r : RxState) : (setRxState r s).mem = s.mem := rfl
@[simp] theorem setRxState_regs (r : RxState) : (setRxState r s).regs = s.regs := rfl
@[simp] theorem setRxState_isOpen (r : RxState) : (setRxState r s).isOpen = s.isOpen := rfl
@[simp] theorem setRxState_cfg (r : RxState) : (setRxState r s).cfg = s.cfg := rfl
@[simp] theorem setRxState_rx (r : RxState) : (setRxState r s).rx = ({ s.rx with state := r } : Rx) := rfl
@[simp] theorem setRxState_tx (r : RxState) : (setRxState r s).tx = s.tx := rfl
@[simp] theorem setRxState_client (r : RxState) : (setRxState r s).client = s.client := rfl
@[simp] theorem setRxState_sstate (r : RxState) : (setRxState r s).sstate = s.sstate := rfl
@[simp] theorem setRxState_sil (r : RxState) : (setRxState r s).sil = s.sil := rfl
@[simp] theorem setRxState_rstN (r : RxState) : (setRxState r s).rstN = s.rstN := rfl
@[simp] theorem setRxState_inputs (r : RxState) : (setRxState r s).inputs = s.inputs := rfl
@[simp] theorem setRxState_out (r : RxState) : (setRxState r s).out = s.out := rfl

@[simp] theorem loadTx_inst (f : List Byte) : (loadTx f s).inst = s.inst := rfl
@[simp] theorem loadTx_mem (f : List Byte) : (loadTx f s).mem = s.mem := rfl
@[simp] theorem loadTx_regs (f : List Byte) : (loadTx f s).regs = s.regs := rfl
@[simp] theorem loadTx_isOpen (f : List Byte) : (loadTx f s).isOpen = s.isOpen := rfl
@[simp] theorem loadTx_cfg (f : List Byte) : (loadTx f s).cfg = s.cfg := rfl
@[simp] theorem loadTx_rx (f : List Byte) : (loadTx f s).rx = s.rx := rfl
@[simp] theorem loadTx_tx (f : List Byte) :
    (loadTx f s).tx =
      ({ s.tx with buf := writeCells s.tx.buf 0 f, len := BitVec.ofNat 9 f.length } : Tx) := rfl
@[simp] theorem loadTx_client (f : List Byte) : (loadTx f s).client = s.client := rfl
@[simp] theorem loadTx_sstate (f : List Byte) : (loadTx f s).sstate = s.sstate := rfl
@[simp] theorem loadTx_sil (f : List Byte) : (loadTx f s).sil = s.sil := rfl
@[simp] theorem loadTx_rstN (f : List Byte) : (loadTx f s).rstN = s.rstN := rfl
@[simp] theorem loadTx_inputs (f : List Byte) : (loadTx f s).inputs = s.inputs := rfl
@[simp] theorem loadTx_out (f : List Byte) : (loadTx f s).out = s.out := rfl

@[simp] theorem txStart_inst : (txStart s).inst = s.inst := rfl
@[simp] theorem txStart_mem : (txStart s).mem = s.mem := rfl
@[simp] theorem txStart_regs : (txStart s).regs = s.regs := rfl
@[simp] theorem txStart_isOpen : (txStart s).isOpen = s.isOpen := rfl
@[simp] theorem txStart_cfg : (txStart s).cfg = s.cfg := rfl
@[simp] theorem txStart_rx : (txStart s).rx = ({ s.rx with en := false } : Rx) := rfl
@[simp] theorem txStart_tx : (txStart s).tx = ({ s.tx with idx := 0#9, active := true } : Tx) := rfl
@[simp] theorem txStart_client : (txStart s).client = s.client := rfl
@[simp] theorem txStart_sstate : (txStart s).sstate = s.sstate := rfl
@[simp] theorem txStart_sil : (txStart s).sil = s.sil := rfl
@[simp] theorem txStart_rstN : (txStart s).rstN = s.rstN := rfl
@[simp] theorem txStart_inputs : (txStart s).inputs = s.inputs := rfl
@[simp] theorem txStart_out : (txStart s).out = s.out := rfl

@[simp] theorem recordRequest_inst (fc exc : Byte) (bcast : Bool) :
    (recordRequest fc exc bcast s).inst =
      s.inst := rfl
@[simp] theorem recordRequest_mem (fc exc : Byte) (bcast : Bool) : (recordRequest fc exc bcast s).mem = s.mem := rfl
@[simp] theorem recordRequest_regs (fc exc : Byte) (bcast : Bool) :
    (recordRequest fc exc bcast s).regs =
      ({ s.regs with evt := s.regs.evt ||| evtSrvreq, srv := { s.regs.srv with lastFc := fc, lastExc := exc, lastBcast := bcast } } : Regs) := rfl
@[simp] theorem recordRequest_isOpen (fc exc : Byte) (bcast : Bool) :
    (recordRequest fc exc bcast s).isOpen =
      s.isOpen := rfl
@[simp] theorem recordRequest_cfg (fc exc : Byte) (bcast : Bool) : (recordRequest fc exc bcast s).cfg = s.cfg := rfl
@[simp] theorem recordRequest_rx (fc exc : Byte) (bcast : Bool) : (recordRequest fc exc bcast s).rx = s.rx := rfl
@[simp] theorem recordRequest_tx (fc exc : Byte) (bcast : Bool) : (recordRequest fc exc bcast s).tx = s.tx := rfl
@[simp] theorem recordRequest_client (fc exc : Byte) (bcast : Bool) :
    (recordRequest fc exc bcast s).client =
      s.client := rfl
@[simp] theorem recordRequest_sstate (fc exc : Byte) (bcast : Bool) :
    (recordRequest fc exc bcast s).sstate =
      s.sstate := rfl
@[simp] theorem recordRequest_sil (fc exc : Byte) (bcast : Bool) : (recordRequest fc exc bcast s).sil = s.sil := rfl
@[simp] theorem recordRequest_rstN (fc exc : Byte) (bcast : Bool) :
    (recordRequest fc exc bcast s).rstN =
      s.rstN := rfl
@[simp] theorem recordRequest_inputs (fc exc : Byte) (bcast : Bool) :
    (recordRequest fc exc bcast s).inputs =
      s.inputs := rfl
@[simp] theorem recordRequest_out (fc exc : Byte) (bcast : Bool) : (recordRequest fc exc bcast s).out = s.out := rfl

@[simp] theorem sendResponse_inst (rfc : Byte) (rp : List Byte) : (sendResponse rfc rp s).inst = s.inst := rfl
@[simp] theorem sendResponse_mem (rfc : Byte) (rp : List Byte) : (sendResponse rfc rp s).mem = s.mem := rfl
@[simp] theorem sendResponse_regs (rfc : Byte) (rp : List Byte) : (sendResponse rfc rp s).regs = s.regs := rfl
@[simp] theorem sendResponse_isOpen (rfc : Byte) (rp : List Byte) : (sendResponse rfc rp s).isOpen = s.isOpen := rfl
@[simp] theorem sendResponse_cfg (rfc : Byte) (rp : List Byte) : (sendResponse rfc rp s).cfg = s.cfg := rfl
@[simp] theorem sendResponse_rx (rfc : Byte) (rp : List Byte) :
    (sendResponse rfc rp s).rx =
      ({ s.rx with en := false } : Rx) := rfl
@[simp] theorem sendResponse_tx (rfc : Byte) (rp : List Byte) :
    (sendResponse rfc rp s).tx =
      ({ buf := writeCells s.tx.buf 0 (encodeFrame s.cfg.unit rfc rp), len := BitVec.ofNat 9 (encodeFrame s.cfg.unit rfc rp).length, idx := 0#9, active := true } : Tx) := rfl
@[simp] theorem sendResponse_client (rfc : Byte) (rp : List Byte) : (sendResponse rfc rp s).client = s.client := rfl
@[simp] theorem sendResponse_sstate (rfc : Byte) (rp : List Byte) : (sendResponse rfc rp s).sstate = .respond := rfl
@[simp] theorem sendResponse_sil (rfc : Byte) (rp : List Byte) : (sendResponse rfc rp s).sil = s.sil := rfl
@[simp] theorem sendResponse_rstN (rfc : Byte) (rp : List Byte) : (sendResponse rfc rp s).rstN = s.rstN := rfl
@[simp] theorem sendResponse_inputs (rfc : Byte) (rp : List Byte) : (sendResponse rfc rp s).inputs = s.inputs := rfl
@[simp] theorem sendResponse_out (rfc : Byte) (rp : List Byte) : (sendResponse rfc rp s).out = s.out := rfl

@[simp] theorem serverFrameError_inst (k : FrameError) : (serverFrameError k s).inst = s.inst := rfl
@[simp] theorem serverFrameError_mem (k : FrameError) : (serverFrameError k s).mem = s.mem := rfl
@[simp] theorem serverFrameError_regs (k : FrameError) :
    (serverFrameError k s).regs =
      ({ s.regs with evt := s.regs.evt ||| evtRxdrop, srv := { s.regs.srv with lastFerr := some k } } : Regs) := rfl
@[simp] theorem serverFrameError_isOpen (k : FrameError) : (serverFrameError k s).isOpen = s.isOpen := rfl
@[simp] theorem serverFrameError_cfg (k : FrameError) : (serverFrameError k s).cfg = s.cfg := rfl
@[simp] theorem serverFrameError_rx (k : FrameError) : (serverFrameError k s).rx = s.rx := rfl
@[simp] theorem serverFrameError_tx (k : FrameError) : (serverFrameError k s).tx = s.tx := rfl
@[simp] theorem serverFrameError_client (k : FrameError) : (serverFrameError k s).client = s.client := rfl
@[simp] theorem serverFrameError_sstate (k : FrameError) : (serverFrameError k s).sstate = s.sstate := rfl
@[simp] theorem serverFrameError_sil (k : FrameError) : (serverFrameError k s).sil = s.sil := rfl
@[simp] theorem serverFrameError_rstN (k : FrameError) : (serverFrameError k s).rstN = s.rstN := rfl
@[simp] theorem serverFrameError_inputs (k : FrameError) : (serverFrameError k s).inputs = s.inputs := rfl
@[simp] theorem serverFrameError_out (k : FrameError) : (serverFrameError k s).out = s.out := rfl

@[simp] theorem serverTxDone_inst : (serverTxDone s).inst = s.inst := rfl
@[simp] theorem serverTxDone_mem : (serverTxDone s).mem = s.mem := rfl
@[simp] theorem serverTxDone_regs : (serverTxDone s).regs = s.regs := rfl
@[simp] theorem serverTxDone_isOpen : (serverTxDone s).isOpen = s.isOpen := rfl
@[simp] theorem serverTxDone_cfg : (serverTxDone s).cfg = s.cfg := rfl
@[simp] theorem serverTxDone_rx :
    (serverTxDone s).rx =
      ({ s.rx with en := true, state := .idle, len := 0#9, overrun := false, charErr := false, gap := false } : Rx) := rfl
@[simp] theorem serverTxDone_tx : (serverTxDone s).tx = s.tx := rfl
@[simp] theorem serverTxDone_client : (serverTxDone s).client = s.client := rfl
@[simp] theorem serverTxDone_sstate : (serverTxDone s).sstate = .listen := rfl
@[simp] theorem serverTxDone_sil : (serverTxDone s).sil = s.sil := rfl
@[simp] theorem serverTxDone_rstN : (serverTxDone s).rstN = s.rstN := rfl
@[simp] theorem serverTxDone_inputs : (serverTxDone s).inputs = s.inputs := rfl
@[simp] theorem serverTxDone_out : (serverTxDone s).out = s.out := rfl

@[simp] theorem setDsErr_inst (b : Bool) : (setDsErr b s).inst = s.inst := rfl
@[simp] theorem setDsErr_mem (b : Bool) : (setDsErr b s).mem = s.mem := rfl
@[simp] theorem setDsErr_regs (b : Bool) : (setDsErr b s).regs = ({ s.regs with dsErr := b } : Regs) := rfl
@[simp] theorem setDsErr_isOpen (b : Bool) : (setDsErr b s).isOpen = s.isOpen := rfl
@[simp] theorem setDsErr_cfg (b : Bool) : (setDsErr b s).cfg = s.cfg := rfl
@[simp] theorem setDsErr_rx (b : Bool) : (setDsErr b s).rx = s.rx := rfl
@[simp] theorem setDsErr_tx (b : Bool) : (setDsErr b s).tx = s.tx := rfl
@[simp] theorem setDsErr_client (b : Bool) : (setDsErr b s).client = s.client := rfl
@[simp] theorem setDsErr_sstate (b : Bool) : (setDsErr b s).sstate = s.sstate := rfl
@[simp] theorem setDsErr_sil (b : Bool) : (setDsErr b s).sil = s.sil := rfl
@[simp] theorem setDsErr_rstN (b : Bool) : (setDsErr b s).rstN = s.rstN := rfl
@[simp] theorem setDsErr_inputs (b : Bool) : (setDsErr b s).inputs = s.inputs := rfl
@[simp] theorem setDsErr_out (b : Bool) : (setDsErr b s).out = s.out := rfl

@[simp] theorem transportError_inst (c : TCause) : (transportError c s).inst = s.inst := rfl
@[simp] theorem transportError_mem (c : TCause) : (transportError c s).mem = s.mem := rfl
@[simp] theorem transportError_regs (c : TCause) :
    (transportError c s).regs =
      ({ s.regs with tcause := c, evt := s.regs.evt ||| evtTerr } : Regs) := rfl
@[simp] theorem transportError_isOpen (c : TCause) : (transportError c s).isOpen = s.isOpen := rfl
@[simp] theorem transportError_cfg (c : TCause) : (transportError c s).cfg = s.cfg := rfl
@[simp] theorem transportError_rx (c : TCause) : (transportError c s).rx = s.rx := rfl
@[simp] theorem transportError_tx (c : TCause) : (transportError c s).tx = s.tx := rfl
@[simp] theorem transportError_client (c : TCause) : (transportError c s).client = s.client := rfl
@[simp] theorem transportError_sstate (c : TCause) : (transportError c s).sstate = s.sstate := rfl
@[simp] theorem transportError_sil (c : TCause) : (transportError c s).sil = s.sil := rfl
@[simp] theorem transportError_rstN (c : TCause) : (transportError c s).rstN = s.rstN := rfl
@[simp] theorem transportError_inputs (c : TCause) : (transportError c s).inputs = s.inputs := rfl
@[simp] theorem transportError_out (c : TCause) : (transportError c s).out = s.out := rfl

@[simp] theorem lineOff_inst : (lineOff s).inst = s.inst := rfl
@[simp] theorem lineOff_mem : (lineOff s).mem = s.mem := rfl
@[simp] theorem lineOff_regs : (lineOff s).regs = s.regs := rfl
@[simp] theorem lineOff_isOpen : (lineOff s).isOpen = false := rfl
@[simp] theorem lineOff_cfg : (lineOff s).cfg = s.cfg := rfl
@[simp] theorem lineOff_rx :
    (lineOff s).rx =
      ({ s.rx with en := false, state := .init, len := 0#9, overrun := false, charErr := false, gap := false } : Rx) := rfl
@[simp] theorem lineOff_tx : (lineOff s).tx = ({ s.tx with active := false, idx := 0#9 } : Tx) := rfl
@[simp] theorem lineOff_client : (lineOff s).client = s.client := rfl
@[simp] theorem lineOff_sstate : (lineOff s).sstate = s.sstate := rfl
@[simp] theorem lineOff_sil : (lineOff s).sil = s.sil := rfl
@[simp] theorem lineOff_rstN : (lineOff s).rstN = s.rstN := rfl
@[simp] theorem lineOff_inputs : (lineOff s).inputs = s.inputs := rfl
@[simp] theorem lineOff_out : (lineOff s).out = s.out := rfl

@[simp] theorem State.taken_inst (rest : List Event) : (State.taken rest s).inst = s.inst := rfl
@[simp] theorem State.taken_mem (rest : List Event) : (State.taken rest s).mem = s.mem := rfl
@[simp] theorem State.taken_regs (rest : List Event) : (State.taken rest s).regs = s.regs := rfl
@[simp] theorem State.taken_isOpen (rest : List Event) : (State.taken rest s).isOpen = s.isOpen := rfl
@[simp] theorem State.taken_cfg (rest : List Event) : (State.taken rest s).cfg = s.cfg := rfl
@[simp] theorem State.taken_rx (rest : List Event) : (State.taken rest s).rx = s.rx := rfl
@[simp] theorem State.taken_tx (rest : List Event) : (State.taken rest s).tx = s.tx := rfl
@[simp] theorem State.taken_client (rest : List Event) : (State.taken rest s).client = s.client := rfl
@[simp] theorem State.taken_sstate (rest : List Event) : (State.taken rest s).sstate = s.sstate := rfl
@[simp] theorem State.taken_sil (rest : List Event) : (State.taken rest s).sil = s.sil := rfl
@[simp] theorem State.taken_rstN (rest : List Event) : (State.taken rest s).rstN = s.rstN := rfl
@[simp] theorem State.taken_inputs (rest : List Event) : (State.taken rest s).inputs = rest := rfl
@[simp] theorem State.taken_out (rest : List Event) : (State.taken rest s).out = .nothing := rfl

@[simp] theorem doReset_inst : (doReset s).inst = s.inst := rfl
@[simp] theorem doReset_mem : (doReset s).mem = Memory.reset := rfl
@[simp] theorem doReset_regs : (doReset s).regs = Regs.reset := rfl
@[simp] theorem doReset_isOpen : (doReset s).isOpen = false := rfl
@[simp] theorem doReset_cfg : (doReset s).cfg = Cfg.reset := rfl
@[simp] theorem doReset_rx : (doReset s).rx = Rx.reset := rfl
@[simp] theorem doReset_tx : (doReset s).tx = Tx.reset := rfl
@[simp] theorem doReset_client : (doReset s).client = Client.reset := rfl
@[simp] theorem doReset_sstate : (doReset s).sstate = .listen := rfl
@[simp] theorem doReset_sil : (doReset s).sil = 0#32 := rfl
@[simp] theorem doReset_rstN : (doReset s).rstN = false := rfl
@[simp] theorem doReset_inputs : (doReset s).inputs = s.inputs := rfl
@[simp] theorem doReset_out : (doReset s).out = .nothing := rfl

@[simp] theorem clientTrySend_inst : (clientTrySend s).inst = s.inst := by
  unfold clientTrySend; split <;> rfl
@[simp] theorem clientTrySend_mem : (clientTrySend s).mem = s.mem := by
  unfold clientTrySend; split <;> rfl
@[simp] theorem clientTrySend_regs : (clientTrySend s).regs = s.regs := by
  unfold clientTrySend; split <;> rfl
@[simp] theorem clientTrySend_isOpen : (clientTrySend s).isOpen = s.isOpen := by
  unfold clientTrySend; split <;> rfl
@[simp] theorem clientTrySend_cfg : (clientTrySend s).cfg = s.cfg := by
  unfold clientTrySend; split <;> rfl
@[simp] theorem clientTrySend_client : (clientTrySend s).client = s.client := by
  unfold clientTrySend; split <;> rfl
@[simp] theorem clientTrySend_sstate : (clientTrySend s).sstate = s.sstate := by
  unfold clientTrySend; split <;> rfl
@[simp] theorem clientTrySend_sil : (clientTrySend s).sil = s.sil := by
  unfold clientTrySend; split <;> rfl
@[simp] theorem clientTrySend_rstN : (clientTrySend s).rstN = s.rstN := by
  unfold clientTrySend; split <;> rfl
@[simp] theorem clientTrySend_inputs : (clientTrySend s).inputs = s.inputs := by
  unfold clientTrySend; split <;> rfl
@[simp] theorem clientTrySend_out : (clientTrySend s).out = s.out := by
  unfold clientTrySend; split <;> rfl

@[simp] theorem advanceTimer_inst (n : BitVec 32) : (advanceTimer n s).inst = s.inst := by
  unfold advanceTimer; split <;> rfl
@[simp] theorem advanceTimer_mem (n : BitVec 32) : (advanceTimer n s).mem = s.mem := by
  unfold advanceTimer; split <;> rfl
@[simp] theorem advanceTimer_regs (n : BitVec 32) : (advanceTimer n s).regs = s.regs := by
  unfold advanceTimer; split <;> rfl
@[simp] theorem advanceTimer_isOpen (n : BitVec 32) : (advanceTimer n s).isOpen = s.isOpen := by
  unfold advanceTimer; split <;> rfl
@[simp] theorem advanceTimer_cfg (n : BitVec 32) : (advanceTimer n s).cfg = s.cfg := by
  unfold advanceTimer; split <;> rfl
@[simp] theorem advanceTimer_rx (n : BitVec 32) : (advanceTimer n s).rx = s.rx := by
  unfold advanceTimer; split <;> rfl
@[simp] theorem advanceTimer_tx (n : BitVec 32) : (advanceTimer n s).tx = s.tx := by
  unfold advanceTimer; split <;> rfl
@[simp] theorem advanceTimer_sstate (n : BitVec 32) : (advanceTimer n s).sstate = s.sstate := by
  unfold advanceTimer; split <;> rfl
@[simp] theorem advanceTimer_sil (n : BitVec 32) : (advanceTimer n s).sil = s.sil := by
  unfold advanceTimer; split <;> rfl
@[simp] theorem advanceTimer_rstN (n : BitVec 32) : (advanceTimer n s).rstN = s.rstN := by
  unfold advanceTimer; split <;> rfl
@[simp] theorem advanceTimer_inputs (n : BitVec 32) : (advanceTimer n s).inputs = s.inputs := by
  unfold advanceTimer; split <;> rfl
@[simp] theorem advanceTimer_out (n : BitVec 32) : (advanceTimer n s).out = s.out := by
  unfold advanceTimer; split <;> rfl

@[simp] theorem retryOrFail_inst (c : ResultCode) (k : Option FrameError) :
    (retryOrFail c k s).inst = s.inst := by
  unfold retryOrFail; split <;> simp
@[simp] theorem retryOrFail_mem (c : ResultCode) (k : Option FrameError) :
    (retryOrFail c k s).mem = s.mem := by
  unfold retryOrFail; split <;> simp
@[simp] theorem retryOrFail_isOpen (c : ResultCode) (k : Option FrameError) :
    (retryOrFail c k s).isOpen = s.isOpen := by
  unfold retryOrFail; split <;> simp
@[simp] theorem retryOrFail_cfg (c : ResultCode) (k : Option FrameError) :
    (retryOrFail c k s).cfg = s.cfg := by
  unfold retryOrFail; split <;> simp
@[simp] theorem retryOrFail_sstate (c : ResultCode) (k : Option FrameError) :
    (retryOrFail c k s).sstate = s.sstate := by
  unfold retryOrFail; split <;> simp
@[simp] theorem retryOrFail_sil (c : ResultCode) (k : Option FrameError) :
    (retryOrFail c k s).sil = s.sil := by
  unfold retryOrFail; split <;> simp
@[simp] theorem retryOrFail_rstN (c : ResultCode) (k : Option FrameError) :
    (retryOrFail c k s).rstN = s.rstN := by
  unfold retryOrFail; split <;> simp
@[simp] theorem retryOrFail_inputs (c : ResultCode) (k : Option FrameError) :
    (retryOrFail c k s).inputs = s.inputs := by
  unfold retryOrFail; split <;> simp
@[simp] theorem retryOrFail_out (c : ResultCode) (k : Option FrameError) :
    (retryOrFail c k s).out = s.out := by
  unfold retryOrFail; split <;> simp

@[simp] theorem timedOut_inst : (timedOut s).inst = s.inst := by simp [timedOut]
@[simp] theorem timedOut_mem : (timedOut s).mem = s.mem := by simp [timedOut]
@[simp] theorem timedOut_isOpen : (timedOut s).isOpen = s.isOpen := by simp [timedOut]
@[simp] theorem timedOut_cfg : (timedOut s).cfg = s.cfg := by simp [timedOut]
@[simp] theorem timedOut_sstate : (timedOut s).sstate = s.sstate := by simp [timedOut]
@[simp] theorem timedOut_sil : (timedOut s).sil = s.sil := by simp [timedOut]
@[simp] theorem timedOut_rstN : (timedOut s).rstN = s.rstN := by simp [timedOut]
@[simp] theorem timedOut_inputs : (timedOut s).inputs = s.inputs := by simp [timedOut]
@[simp] theorem timedOut_out : (timedOut s).out = s.out := by simp [timedOut]

@[simp] theorem crcError_inst (k : FrameError) : (crcError k s).inst = s.inst := by simp [crcError]
@[simp] theorem crcError_mem (k : FrameError) : (crcError k s).mem = s.mem := by simp [crcError]
@[simp] theorem crcError_isOpen (k : FrameError) : (crcError k s).isOpen = s.isOpen := by simp [crcError]
@[simp] theorem crcError_cfg (k : FrameError) : (crcError k s).cfg = s.cfg := by simp [crcError]
@[simp] theorem crcError_sstate (k : FrameError) : (crcError k s).sstate = s.sstate := by simp [crcError]
@[simp] theorem crcError_sil (k : FrameError) : (crcError k s).sil = s.sil := by simp [crcError]
@[simp] theorem crcError_rstN (k : FrameError) : (crcError k s).rstN = s.rstN := by simp [crcError]
@[simp] theorem crcError_inputs (k : FrameError) : (crcError k s).inputs = s.inputs := by simp [crcError]
@[simp] theorem crcError_out (k : FrameError) : (crcError k s).out = s.out := by simp [crcError]

@[simp] theorem matched_inst (fr : Frame) : (matched fr s).inst = s.inst := rfl
@[simp] theorem matched_mem (fr : Frame) : (matched fr s).mem = s.mem := rfl
@[simp] theorem matched_isOpen (fr : Frame) : (matched fr s).isOpen = s.isOpen := rfl
@[simp] theorem matched_cfg (fr : Frame) : (matched fr s).cfg = s.cfg := rfl
@[simp] theorem matched_sstate (fr : Frame) : (matched fr s).sstate = s.sstate := rfl
@[simp] theorem matched_sil (fr : Frame) : (matched fr s).sil = s.sil := rfl
@[simp] theorem matched_rstN (fr : Frame) : (matched fr s).rstN = s.rstN := rfl
@[simp] theorem matched_inputs (fr : Frame) : (matched fr s).inputs = s.inputs := rfl
@[simp] theorem matched_out (fr : Frame) : (matched fr s).out = s.out := rfl
@[simp] theorem matched_tx (fr : Frame) : (matched fr s).tx = s.tx := rfl

@[simp] theorem clientFrame_inst (fr : Frame) : (clientFrame fr s).inst = s.inst := by
  unfold clientFrame; split <;> simp
@[simp] theorem clientFrame_mem (fr : Frame) : (clientFrame fr s).mem = s.mem := by
  unfold clientFrame; split <;> simp
@[simp] theorem clientFrame_isOpen (fr : Frame) : (clientFrame fr s).isOpen = s.isOpen := by
  unfold clientFrame; split <;> simp
@[simp] theorem clientFrame_cfg (fr : Frame) : (clientFrame fr s).cfg = s.cfg := by
  unfold clientFrame; split <;> simp
@[simp] theorem clientFrame_sstate (fr : Frame) : (clientFrame fr s).sstate = s.sstate := by
  unfold clientFrame; split <;> simp
@[simp] theorem clientFrame_sil (fr : Frame) : (clientFrame fr s).sil = s.sil := by
  unfold clientFrame; split <;> simp
@[simp] theorem clientFrame_rstN (fr : Frame) : (clientFrame fr s).rstN = s.rstN := by
  unfold clientFrame; split <;> simp
@[simp] theorem clientFrame_inputs (fr : Frame) : (clientFrame fr s).inputs = s.inputs := by
  unfold clientFrame; split <;> simp
@[simp] theorem clientFrame_out (fr : Frame) : (clientFrame fr s).out = s.out := by
  unfold clientFrame; split <;> simp

@[simp] theorem clientAfterChar_inst : (clientAfterChar s).inst = s.inst := by
  unfold clientAfterChar; split <;> simp
@[simp] theorem clientAfterChar_mem : (clientAfterChar s).mem = s.mem := by
  unfold clientAfterChar; split <;> simp
@[simp] theorem clientAfterChar_isOpen : (clientAfterChar s).isOpen = s.isOpen := by
  unfold clientAfterChar; split <;> simp
@[simp] theorem clientAfterChar_cfg : (clientAfterChar s).cfg = s.cfg := by
  unfold clientAfterChar; split <;> simp
@[simp] theorem clientAfterChar_sstate : (clientAfterChar s).sstate = s.sstate := by
  unfold clientAfterChar; split <;> simp
@[simp] theorem clientAfterChar_sil : (clientAfterChar s).sil = s.sil := by
  unfold clientAfterChar; split <;> simp
@[simp] theorem clientAfterChar_rstN : (clientAfterChar s).rstN = s.rstN := by
  unfold clientAfterChar; split <;> simp
@[simp] theorem clientAfterChar_inputs : (clientAfterChar s).inputs = s.inputs := by
  unfold clientAfterChar; split <;> simp
@[simp] theorem clientAfterChar_out : (clientAfterChar s).out = s.out := by
  unfold clientAfterChar; split <;> simp

@[simp] theorem clientTick_inst : (clientTick s).inst = s.inst := by simp [clientTick]
@[simp] theorem clientTick_mem : (clientTick s).mem = s.mem := by simp [clientTick]
@[simp] theorem clientTick_isOpen : (clientTick s).isOpen = s.isOpen := by simp [clientTick]
@[simp] theorem clientTick_cfg : (clientTick s).cfg = s.cfg := by simp [clientTick]
@[simp] theorem clientTick_sstate : (clientTick s).sstate = s.sstate := by simp [clientTick]
@[simp] theorem clientTick_sil : (clientTick s).sil = s.sil := by simp [clientTick]
@[simp] theorem clientTick_rstN : (clientTick s).rstN = s.rstN := by simp [clientTick]
@[simp] theorem clientTick_inputs : (clientTick s).inputs = s.inputs := by simp [clientTick]
@[simp] theorem clientTick_out : (clientTick s).out = s.out := by simp [clientTick]

end Sys2Proof.Machine
end

