-- ==== Sys2Proof/Laws/Ops.lean ====
section
/-! SUPPORT. For each shared operation one lemma that says what it can do when it answers. -/

namespace Sys2Proof.Machine

/-- A sequence of two parts answers exactly when both do. -/
theorem andThen_next (o : Host.Outcome State Fault Refusal) (f : State → Host.Outcome State Fault Refusal)
    (t : State) : andThen o f = .next t ↔ ∃ s, o = .next s ∧ f s = .next t := by
  cases o <;> simp [andThen]

@[simp] theorem andThen_of_next (s : State) (f : State → Host.Outcome State Fault Refusal) :
    andThen (.next s) f = f s := rfl

/-- The function-code check comes first (R223). -/
theorem routed_of_supported (fc : Byte) (body : PduFn) (p : Params) (m : Memory) (h : supported p fc = true) :
    routed fc body p m = body p m := by simp [routed, h]

theorem routed_of_not_supported (fc : Byte) (body : PduFn) (p : Params) (m : Memory)
    (h : supported p fc = false) : routed fc body p m = .ok (m, excReply fc .illegalFunction) := by
  simp [routed, h, raiseException]

/-- What a bit read answers: an exception with the Data Store untouched, or the packed bits of the range (R240). -/
theorem readBits_ok (fc : Byte) (t : BitTable) (q : PairReq) (p : Params) (m m' : Memory) (r : Reply)
    (h : readBits fc t q p m = .ok (m', r)) :
    m' = m ∧ ((∃ c, r = excReply fc c) ∨
      ∃ start qty, q = .pair start qty ∧ 1 ≤ qty.toNat ∧ qty.toNat ≤ 2000 ∧
        start.toNat + qty.toNat ≤ bitSize p t ∧
        r = ⟨fc, countedPayload (pack (readCells (bitCells m t) start.toNat qty.toNat)), 0#8⟩) := by
  cases q with
  | malformed l =>
    simp only [readBits, raiseException, Except.ok.injEq, Prod.mk.injEq] at h
    exact ⟨h.1.symm, .inl ⟨_, h.2.symm⟩⟩
  | pair start qty =>
    simp only [readBits, raiseException] at h
    split at h
    · simp only [Except.ok.injEq, Prod.mk.injEq] at h
      exact ⟨h.1.symm, .inl ⟨_, h.2.symm⟩⟩
    · split at h
      · simp only [Except.ok.injEq, Prod.mk.injEq] at h
        exact ⟨h.1.symm, .inl ⟨_, h.2.symm⟩⟩
      · split at h
        · simp at h
        · rename_i hq hs b hb
          obtain ⟨hle, rfl⟩ := (memReadBits_ok _ _ _ _ _ _).1 hb
          simp only [Except.ok.injEq, Prod.mk.injEq] at h
          exact ⟨h.1.symm, .inr ⟨start, qty, rfl, by omega, by omega, hle, h.2.symm⟩⟩

/-- What a register read answers (R240). -/
theorem readRegs_ok (fc : Byte) (t : RegTable) (q : PairReq) (p : Params) (m m' : Memory) (r : Reply)
    (h : readRegs fc t q p m = .ok (m', r)) :
    m' = m ∧ ((∃ c, r = excReply fc c) ∨
      ∃ start qty, q = .pair start qty ∧ 1 ≤ qty.toNat ∧ qty.toNat ≤ 125 ∧
        start.toNat + qty.toNat ≤ regSize p t ∧
        r = ⟨fc, countedPayload (regBytes (readCells (regCells m t) start.toNat qty.toNat)), 0#8⟩) := by
  cases q with
  | malformed l =>
    simp only [readRegs, raiseException, Except.ok.injEq, Prod.mk.injEq] at h
    exact ⟨h.1.symm, .inl ⟨_, h.2.symm⟩⟩
  | pair start qty =>
    simp only [readRegs, raiseException] at h
    split at h
    · simp only [Except.ok.injEq, Prod.mk.injEq] at h
      exact ⟨h.1.symm, .inl ⟨_, h.2.symm⟩⟩
    · split at h
      · simp only [Except.ok.injEq, Prod.mk.injEq] at h
        exact ⟨h.1.symm, .inl ⟨_, h.2.symm⟩⟩
      · split at h
        · simp at h
        · rename_i hq hs b hb
          obtain ⟨hle, rfl⟩ := (memReadRegs_ok _ _ _ _ _ _).1 hb
          simp only [Except.ok.injEq, Prod.mk.injEq] at h
          exact ⟨h.1.symm, .inr ⟨start, qty, rfl, by omega, by omega, hle, h.2.symm⟩⟩

/-- What a single coil write answers (R261). -/
theorem writeSingleCoil_ok (q : PairReq) (p : Params) (m m' : Memory) (r : Reply)
    (h : writeSingleCoil q p m = .ok (m', r)) :
    (m' = m ∧ ∃ c, r = excReply 0x05#8 c) ∨
      ∃ address value, q = .pair address value ∧ (value = coilOn ∨ value = coilOff) ∧
        address.toNat < p.nCoils ∧
        m' = { m with coils := writeCells m.coils address.toNat [if value = coilOn then 1#1 else 0#1] } ∧
        r = ⟨0x05#8, rangePayload address value, 0#8⟩ := by
  cases q with
  | malformed l =>
    simp only [writeSingleCoil, raiseException, Except.ok.injEq, Prod.mk.injEq] at h
    exact .inl ⟨h.1.symm, _, h.2.symm⟩
  | pair address value =>
    simp only [writeSingleCoil, raiseException] at h
    split at h
    · simp only [Except.ok.injEq, Prod.mk.injEq] at h
      exact .inl ⟨h.1.symm, _, h.2.symm⟩
    · split at h
      · simp only [Except.ok.injEq, Prod.mk.injEq] at h
        exact .inl ⟨h.1.symm, _, h.2.symm⟩
      · split at h
        · simp at h
        · rename_i hv ha m1 hm
          obtain ⟨_, rfl⟩ := (memWriteBits_ok _ _ _ _ _ _).1 hm
          simp only [Except.ok.injEq, Prod.mk.injEq] at h
          exact .inr ⟨address, value, rfl, by tauto, by omega, h.1.symm, h.2.symm⟩

/-- What a single register write answers (R262). -/
theorem writeSingleRegister_ok (q : PairReq) (p : Params) (m m' : Memory) (r : Reply)
    (h : writeSingleRegister q p m = .ok (m', r)) :
    (m' = m ∧ ∃ c, r = excReply 0x06#8 c) ∨
      ∃ address value, q = .pair address value ∧ address.toNat < p.nHr ∧
        m' = { m with hr := writeCells m.hr address.toNat [value] } ∧
        r = ⟨0x06#8, rangePayload address value, 0#8⟩ := by
  cases q with
  | malformed l =>
    simp only [writeSingleRegister, raiseException, Except.ok.injEq, Prod.mk.injEq] at h
    exact .inl ⟨h.1.symm, _, h.2.symm⟩
  | pair address value =>
    simp only [writeSingleRegister, raiseException] at h
    split at h
    · simp only [Except.ok.injEq, Prod.mk.injEq] at h
      exact .inl ⟨h.1.symm, _, h.2.symm⟩
    · split at h
      · simp at h
      · rename_i ha m1 hm
        obtain ⟨_, rfl⟩ := (memWriteRegs_ok _ _ _ _ _ _).1 hm
        simp only [Except.ok.injEq, Prod.mk.injEq] at h
        exact .inr ⟨address, value, rfl, by omega, h.1.symm, h.2.symm⟩

/-- What a multiple coil write answers (R263). -/
theorem writeMultipleCoils_ok (q : MultiReq) (p : Params) (m m' : Memory) (r : Reply)
    (h : writeMultipleCoils q p m = .ok (m', r)) :
    (m' = m ∧ ∃ c, r = excReply 0x0F#8 c) ∨
      ∃ start qty bc data, q = .multi start qty bc data ∧ 1 ≤ qty.toNat ∧ qty.toNat ≤ 1968 ∧
        bc.toNat = ceilDiv qty.toNat 8 ∧ data.length = bc.toNat ∧ start.toNat + qty.toNat ≤ p.nCoils ∧
        m' = { m with coils := writeCells m.coils start.toNat (unpack data qty.toNat) } ∧
        r = ⟨0x0F#8, rangePayload start qty, 0#8⟩ := by
  cases q with
  | short l =>
    simp only [writeMultipleCoils, raiseException, Except.ok.injEq, Prod.mk.injEq] at h
    exact .inl ⟨h.1.symm, _, h.2.symm⟩
  | multi start qty bc data =>
    simp only [writeMultipleCoils, raiseException] at h
    split at h
    · simp only [Except.ok.injEq, Prod.mk.injEq] at h
      exact .inl ⟨h.1.symm, _, h.2.symm⟩
    · split at h
      · simp only [Except.ok.injEq, Prod.mk.injEq] at h
        exact .inl ⟨h.1.symm, _, h.2.symm⟩
      · split at h
        · simp only [Except.ok.injEq, Prod.mk.injEq] at h
          exact .inl ⟨h.1.symm, _, h.2.symm⟩
        · split at h
          · simp at h
          · rename_i hq hb hs m1 hm
            obtain ⟨_, rfl⟩ := (memWriteBits_ok _ _ _ _ _ _).1 hm
            simp only [Except.ok.injEq, Prod.mk.injEq] at h
            exact .inr ⟨start, qty, bc, data, rfl, by omega, by omega, by omega, by omega, by omega,
              h.1.symm, h.2.symm⟩

/-- What a multiple register write answers (R264). -/
theorem writeMultipleRegisters_ok (q : MultiReq) (p : Params) (m m' : Memory) (r : Reply)
    (h : writeMultipleRegisters q p m = .ok (m', r)) :
    (m' = m ∧ ∃ c, r = excReply 0x10#8 c) ∨
      ∃ start qty bc data, q = .multi start qty bc data ∧ 1 ≤ qty.toNat ∧ qty.toNat ≤ 123 ∧
        bc.toNat = 2 * qty.toNat ∧ data.length = bc.toNat ∧ start.toNat + qty.toNat ≤ p.nHr ∧
        m' = { m with hr := writeCells m.hr start.toNat (bytesRegs data qty.toNat) } ∧
        r = ⟨0x10#8, rangePayload start qty, 0#8⟩ := by
  cases q with
  | short l =>
    simp only [writeMultipleRegisters, raiseException, Except.ok.injEq, Prod.mk.injEq] at h
    exact .inl ⟨h.1.symm, _, h.2.symm⟩
  | multi start qty bc data =>
    simp only [writeMultipleRegisters, raiseException] at h
    split at h
    · simp only [Except.ok.injEq, Prod.mk.injEq] at h
      exact .inl ⟨h.1.symm, _, h.2.symm⟩
    · split at h
      · simp only [Except.ok.injEq, Prod.mk.injEq] at h
        exact .inl ⟨h.1.symm, _, h.2.symm⟩
      · split at h
        · simp only [Except.ok.injEq, Prod.mk.injEq] at h
          exact .inl ⟨h.1.symm, _, h.2.symm⟩
        · split at h
          · simp at h
          · rename_i hq hb hs m1 hm
            obtain ⟨_, rfl⟩ := (memWriteRegs_ok _ _ _ _ _ _).1 hm
            simp only [Except.ok.injEq, Prod.mk.injEq] at h
            exact .inr ⟨start, qty, bc, data, rfl, by omega, by omega, by omega, by omega, by omega,
              h.1.symm, h.2.symm⟩

/-- What an addressed request can do (R333). -/
theorem addressed_next (fc : Byte) (run : PduFn) (s t : State) (h : addressed fc run s = .next t) :
    ∃ m r, run s.inst s.mem = .ok (m, r) ∧
      t = sendResponse r.fc r.payload (recordRequest fc r.exc false { s with mem := m }) := by
  simp only [addressed] at h
  split at h
  · simp at h
  · rename_i m r hr
    exact ⟨m, r, hr, by simpa using h.symm⟩

/-- What a broadcast can do (R335). -/
theorem broadcast_next (fc : Byte) (run : PduFn) (s t : State) (h : broadcast fc run s = .next t) :
    (isWriteFc fc = true ∧ supported s.inst fc = true ∧ ∃ m r, run s.inst s.mem = .ok (m, r) ∧
      t = { recordRequest fc r.exc true { s with mem := m } with sstate := .listen }) ∨
    ((isWriteFc fc && supported s.inst fc) = false ∧ t = { s with sstate := .listen }) := by
  simp only [broadcast] at h
  split at h
  · rename_i hw
    rw [Bool.and_eq_true] at hw
    split at h
    · simp at h
    · rename_i m r hr
      exact .inl ⟨hw.1, hw.2, m, r, hr, by simpa using h.symm⟩
  · rename_i hw
    exact .inr ⟨by simpa using hw, by simpa using h.symm⟩

/-- What the server's address filter can do (R332, R334). -/
theorem serverFrame_next (addr fc : Byte) (run : PduFn) (s t : State) (h : serverFrame addr fc run s = .next t) :
    (addr = s.cfg.unit ∧ addressed fc run { s with sstate := .dispatch } = .next t) ∨
    (addr ≠ s.cfg.unit ∧ addr = 0#8 ∧ s.cfg.bcastEn = true ∧
      broadcast fc run { s with sstate := .dispatch } = .next t) ∨
    (addr ≠ s.cfg.unit ∧ ¬(addr = 0#8 ∧ s.cfg.bcastEn = true) ∧ t = { s with sstate := .listen }) := by
  simp only [serverFrame] at h
  split at h
  · exact .inl ⟨‹_›, h⟩
  · split at h
    · rename_i h1 h2
      exact .inr (.inl ⟨h1, h2.1, h2.2, h⟩)
    · rename_i h1 h2
      exact .inr (.inr ⟨h1, h2, by simpa using h.symm⟩)

/-- What a frame that ended and decoded can do (R109, R193). -/
theorem acceptFrame_next (addr fc : Byte) (p : List Byte) (run : PduFn) (s t : State)
    (h : acceptFrame addr fc p run s = .next t) :
    (s.listening = false ∧ t = s) ∨
    (s.listening = true ∧ s.cfg.role = .server ∧ serverFrame addr fc run s = .next t) ∨
    (s.listening = true ∧ s.cfg.role = .client ∧ t = clientFrame ⟨addr, fc, p⟩ s) := by
  simp only [acceptFrame] at h
  split at h
  · rename_i hl
    split at h
    · rename_i hr
      exact .inr (.inl ⟨hl, hr, h⟩)
    · rename_i hr
      exact .inr (.inr ⟨hl, hr, by simpa using h.symm⟩)
  · rename_i hl
    exact .inl ⟨by simpa using hl, by simpa using h.symm⟩

/-- What `client_try_send` does (R298). -/
theorem clientTrySend_cases (s : State) :
    (s.client.state = .sending ∧ s.tx.active = false ∧ s.cfg.t35.toNat ≤ s.sil.toNat ∧
      clientTrySend s = txStart s) ∨ clientTrySend s = s := by
  unfold clientTrySend
  split
  · rename_i h
    exact .inl ⟨h.1, h.2.1, h.2.2, rfl⟩
  · exact .inr rfl

/-- What an `IdleTick` can do (R190, R192). -/
theorem idleTick_next (s t : State) (h : idleTick s = .next t) :
    (s.lineFree = false ∧ t = s) ∨
    (s.lineFree = true ∧ ∃ u, idleReceiver (idleCounters s) = .next u ∧ t = clientTick u) := by
  simp only [idleTick] at h
  split at h
  · rename_i hf
    obtain ⟨u, hu, ht⟩ := (andThen_next _ _ _).1 h
    exact .inr ⟨hf, u, hu, by simpa using ht.symm⟩
  · rename_i hf
    exact .inl ⟨by simpa using hf, by simpa using h.symm⟩

/-- What the receiver can do on an idle tick (R190). -/
theorem idleReceiver_next (s t : State) (h : idleReceiver s = .next t) :
    t = s ∨ (s.rx.en = true ∧ s.rx.state = .init ∧ s.cfg.t35.toNat ≤ s.sil.toNat ∧ t = setRxState .idle s) ∨
    (s.rx.en = true ∧ s.rx.state = .recv ∧ s.cfg.t15.toNat ≤ s.sil.toNat ∧ t = setRxState .ctrlWait s) ∨
    (s.rx.en = true ∧ s.rx.state = .ctrlWait ∧ s.cfg.t35.toNat ≤ s.sil.toNat ∧ frameEnd s = .next t) := by
  simp only [idleReceiver] at h
  split at h
  · rename_i he
    split at h
    · rename_i hs
      split at h
      · rename_i hc
        exact .inr (.inl ⟨he, hs, hc, by simpa using h.symm⟩)
      · exact .inl (by simpa using h.symm)
    · exact .inl (by simpa using h.symm)
    · rename_i hs
      split at h
      · rename_i hc
        exact .inr (.inr (.inl ⟨he, hs, hc, by simpa using h.symm⟩))
      · exact .inl (by simpa using h.symm)
    · rename_i hs
      split at h
      · rename_i hc
        exact .inr (.inr (.inr ⟨he, hs, hc, h⟩))
      · exact .inl (by simpa using h.symm)
  · exact .inl (by simpa using h.symm)

/-- What the end of a frame can do (R193). -/
theorem frameEnd_next (s t : State) (h : frameEnd s = .next t) :
    (∃ k, decodeFrame s.rx.overrun s.rx.charErr s.rx.gap (rxFrame s) = .error k ∧
      ((s.cfg.role = .server ∧ t = serverFrameError k (setRxState .idle s)) ∨
        (s.cfg.role = .client ∧ t = crcError k (setRxState .idle s)))) ∨
    (∃ fr i, decodeFrame s.rx.overrun s.rx.charErr s.rx.gap (rxFrame s) = .ok fr ∧
      decodePdu fr.addr fr.fc fr.payload = .ok i ∧ exec i (setRxState .idle s) = .next t) ∨
    (∃ fr r, decodeFrame s.rx.overrun s.rx.charErr s.rx.gap (rxFrame s) = .ok fr ∧
      decodePdu fr.addr fr.fc fr.payload = .error r ∧
      acceptFrame fr.addr fr.fc fr.payload (routed fr.fc (unsupportedPdu fr.fc)) (setRxState .idle s) =
        .next t) := by
  simp only [frameEnd] at h
  split at h
  · rename_i k hk
    refine .inl ⟨k, hk, ?_⟩
    split at h
    · rename_i hr
      exact .inl ⟨hr, by simpa using h.symm⟩
    · rename_i hr
      exact .inr ⟨hr, by simpa using h.symm⟩
  · rename_i fr hfr
    split at h
    · rename_i i hi
      exact .inr (.inl ⟨fr, i, hfr, hi, h⟩)
    · rename_i r hr
      exact .inr (.inr ⟨fr, r, hfr, hr, h⟩)

/-- What a `RxChar` can do (R191, R192). -/
theorem rxChar_next (b : Byte) (err : Bool) (s t : State) (h : rxChar b err s = .next t) :
    (s.lineFree = false ∧ t = s) ∨
    (s.lineFree = true ∧
      t = clientAfterChar { advanceTimer (s.cfg.cb.setWidth 32) s with rx := rxTake b err s.rx, sil := 0#32 }) := by
  simp only [rxChar] at h
  split at h
  · rename_i hf
    exact .inr ⟨hf, by simpa using h.symm⟩
  · rename_i hf
    exact .inl ⟨by simpa using hf, by simpa using h.symm⟩

/-- The state with the next character sent, before the test for the last one (R186). -/
def sentChar (s : State) : State :=
  { s with
    out := .txChar (txByte s) (charBits s.cfg.parity s.cfg.stop2 (txByte s))
    tx := { s.tx with idx := s.tx.idx + 1#9 }
    sil := 0#32 }

/-- What a `TxChar` can do (R186, R192). -/
theorem txChar_next (s t : State) (h : txChar s = .next t) :
    (s.transmitting = false ∧ t = s) ∨
    (s.transmitting = true ∧ s.tx.idx + 1#9 = s.tx.len ∧
      t = txDone { sentChar s with tx := { (sentChar s).tx with active := false } }) ∨
    (s.transmitting = true ∧ s.tx.idx + 1#9 ≠ s.tx.len ∧ t = sentChar s) := by
  simp only [txChar] at h
  split at h
  · rename_i hf
    split at h
    · rename_i hi
      exact .inr (.inl ⟨hf, hi, by simpa [sentChar] using h.symm⟩)
    · rename_i hi
      exact .inr (.inr ⟨hf, hi, by simpa [sentChar] using h.symm⟩)
  · rename_i hf
    exact .inl ⟨by simpa using hf, by simpa using h.symm⟩

/-- What a `CsrWrite` can do (R361). -/
theorem csrWrite_next (n : Nat) (v : Reg) (s t : State) (h : csrWrite n v s = .next t) :
    (∃ l, decodeCsr n v = .ok l ∧ execAll l s = .next t) ∨
    (∃ r, decodeCsr n v = .error r ∧ t = { s with regs := writeReg n v s.regs }) := by
  simp only [csrWrite] at h
  split at h
  · rename_i l hl
    exact .inl ⟨l, hl, h⟩
  · rename_i r hr
    exact .inr ⟨r, hr, by simpa using h.symm⟩

/-- The commands of one write run one after another (R363). -/
theorem execAll_cons_next (i : Instr) (r : List Instr) (s t : State) :
    execAll (i :: r) s = .next t ↔ ∃ u, exec i s = .next u ∧ execAll r u = .next t := by
  simp only [execAll, andThen_next]

/-- What a step can do: handle the first event of the list, or the block's own `TxChar` (R10). -/
theorem step_next (s t : State) (h : step s = .next t) :
    (∃ e rest, s.inputs = e :: rest ∧ handle e (s.taken rest) = .next t) ∨
    (s.inputs = [] ∧ handle .txChar (s.taken []) = .next t) := by
  simp only [step, nextEvent] at h
  split at h
  · exact .inr ⟨‹_›, h⟩
  · rename_i e rest he
    exact .inl ⟨e, rest, he, h⟩

end Sys2Proof.Machine
end

