-- ==== Sys2Proof/Laws/PerInstr.lean ====
section
/-! SUPPORT. Statements made per instruction: the fixed bits of each row of spec/opcode_table.json stand in its
encoding. -/

namespace Sys2Proof.Laws.FixedBits

/-- The bits of an encoding that the opcode table numbers: the function code of a frame, the value of a write to
`CTRL`, the number of any other register. -/
def tableBits (c : Code) : Nat :=
  match c with
  | .frame f => (f.getD 1 0#8).toNat
  | .csrWrite n v => if n = 0 then v.toNat else n

/-- The mask of an instruction's row. -/
def rowMask (i : Instr) : Nat :=
  match i with
  | .readCoils _ _ => 0xFF
  | .readDiscreteInputs _ _ => 0xFF
  | .readHoldingRegisters _ _ => 0xFF
  | .readInputRegisters _ _ => 0xFF
  | .writeSingleCoil _ _ => 0xFF
  | .writeSingleRegister _ _ => 0xFF
  | .writeMultipleCoils _ _ => 0xFF
  | .writeMultipleRegisters _ _ => 0xFF
  | .exception _ _ _ => 0x80
  | .openCmd => 0x01
  | .closeCmd => 0x02
  | .goCmd => 0x04
  | .dsgoCmd => 0x08
  | .crcInit => 0x10
  | .crcDataWrite _ => 0x3FF
  | .evtClear _ => 0x3FF

/-- The fixed bits of an instruction's row. -/
def rowMatch (i : Instr) : Nat :=
  match i with
  | .readCoils _ _ => 0x01
  | .readDiscreteInputs _ _ => 0x02
  | .readHoldingRegisters _ _ => 0x03
  | .readInputRegisters _ _ => 0x04
  | .writeSingleCoil _ _ => 0x05
  | .writeSingleRegister _ _ => 0x06
  | .writeMultipleCoils _ _ => 0x0F
  | .writeMultipleRegisters _ _ => 0x10
  | .exception _ _ _ => 0x80
  | .openCmd => 0x01
  | .closeCmd => 0x02
  | .goCmd => 0x04
  | .dsgoCmd => 0x08
  | .crcInit => 0x10
  | .crcDataWrite _ => 0x11
  | .evtClear _ => 0x02

/-- The fixed bits of the row stand in the instruction's encoding. -/
def Statement (i : Instr) : Prop := tableBits (encode i) &&& rowMask i = rowMatch i

theorem readCoils (addr : Byte) (q : PairReq) : Statement (.readCoils addr q) := by
  simp [Statement, tableBits, encode, Machine.encodeFrame, rowMask, rowMatch]

theorem readDiscreteInputs (addr : Byte) (q : PairReq) : Statement (.readDiscreteInputs addr q) := by
  simp [Statement, tableBits, encode, Machine.encodeFrame, rowMask, rowMatch]

theorem readHoldingRegisters (addr : Byte) (q : PairReq) : Statement (.readHoldingRegisters addr q) := by
  simp [Statement, tableBits, encode, Machine.encodeFrame, rowMask, rowMatch]

theorem readInputRegisters (addr : Byte) (q : PairReq) : Statement (.readInputRegisters addr q) := by
  simp [Statement, tableBits, encode, Machine.encodeFrame, rowMask, rowMatch]

theorem writeSingleCoil (addr : Byte) (q : PairReq) : Statement (.writeSingleCoil addr q) := by
  simp [Statement, tableBits, encode, Machine.encodeFrame, rowMask, rowMatch]

theorem writeSingleRegister (addr : Byte) (q : PairReq) : Statement (.writeSingleRegister addr q) := by
  simp [Statement, tableBits, encode, Machine.encodeFrame, rowMask, rowMatch]

theorem writeMultipleCoils (addr : Byte) (q : MultiReq) : Statement (.writeMultipleCoils addr q) := by
  simp [Statement, tableBits, encode, Machine.encodeFrame, rowMask, rowMatch]

theorem writeMultipleRegisters (addr : Byte) (q : MultiReq) : Statement (.writeMultipleRegisters addr q) := by
  simp [Statement, tableBits, encode, Machine.encodeFrame, rowMask, rowMatch]

theorem exception (addr : Byte) (fc7 : BitVec 7) (payload : List Byte) :
    Statement (.exception addr fc7 payload) := by
  show (Machine.highFc fc7).toNat &&& 0x80 = 0x80
  revert fc7
  decide

theorem openCmd : Statement .openCmd := rfl

theorem closeCmd : Statement .closeCmd := rfl

theorem goCmd : Statement .goCmd := rfl

theorem dsgoCmd : Statement .dsgoCmd := rfl

theorem crcInit : Statement .crcInit := rfl

theorem crcDataWrite (b : Byte) : Statement (.crcDataWrite b) := by
  simp [Statement, tableBits, encode, rowMask, rowMatch]

theorem evtClear (mask : BitVec 5) : Statement (.evtClear mask) := by
  simp [Statement, tableBits, encode, rowMask, rowMatch]

end Sys2Proof.Laws.FixedBits
end

