-- ==== Sys2Proof/Tests/Slice0.lean ====
section
/-! SUPPORT. Tests: the checks of WellFormed, words written out from the spec's encodings, single steps with the results the spec's
vectors give (95_test_vectors.md), and for each obligation with hypotheses a state and operands that meet them. -/

set_option maxRecDepth 100000

namespace Sys2Proof.Tests

open Sys2Proof.Machine

/-! ## Helpers -/

/-- The next state of an outcome, if there is one. -/
def nextOf (o : Host.Outcome State Fault Refusal) : Option State :=
  match o with
  | .next t => some t
  | .fault _ => none
  | .refused _ => none

/-- Something read off the next state. -/
def onNext {α : Type} (o : Host.Outcome State Fault Refusal) (f : State → α) : Option α := (nextOf o).map f

/-- The frame in `tx_buf`. -/
def sent (t : State) : List Byte := readCells t.tx.buf 0 t.tx.len.toNat

/-- An instance with every table as large as R5 allows. -/
def large : Params := ⟨65536, 65536, 65536, 65536, true⟩

/-- An instance without the extension functions. -/
def plain : Params := ⟨100, 100, 100, 100, false⟩

/-- A configuration for 9600 baud, eight data bits, no parity, one stop bit. -/
def cfgOf (r : Role) : Cfg := ⟨9600#24, 0#2, false, r, true, 0x01#8, 10#4, 15#5, 35#16, 9600#32⟩

/-- A server at unit 1 that listens, its receiver in the given state. -/
def serverIn (p : Params) (r : RxState) (sil : BitVec 32) (ev : List Event) : State :=
  { State.resetOf p with
    isOpen := true, cfg := cfgOf .server, rx := { Rx.reset with state := r, en := true }, sil := sil, inputs := ev }

/-- A server at unit 1 that listens. -/
def server (p : Params) : State := serverIn p .idle 35#32 []

/-- A client, open and idle, on a line silent for `sil` ticks. -/
def idleClient (sil : BitVec 32) : State :=
  { State.resetOf large with isOpen := true, cfg := cfgOf .client, sil := sil }

/-- A client that has sent a request with the given function code and argument to unit 1, and waits. -/
def waiting (fc : Byte) (arg : Word) (left : Byte) (ev : List Event) : State :=
  { idleClient 35#32 with
    regs := { Regs.reset with result := ⟨.pending, none, 0#8, 0#8⟩ }
    rx := { Rx.reset with state := .idle, en := true }
    tx := ⟨writeCells [] 2 [0x00#8, 0x05#8, hi8 arg, lo8 arg], 8#9, 8#9, false⟩
    client := ⟨.await, ⟨0x01#8, fc, 0x0005#16, arg⟩, 2#8, left, 0#32⟩
    inputs := ev }

/-- A client or server that transmits four bytes and has sent `idx` of them. -/
def sending (r : Role) (unit : Byte) (idx : BitVec 9) (ev : List Event) : State :=
  { State.reset with
    isOpen := true
    cfg := cfgOf r
    tx := ⟨writeCells [] 0 [0x01#8, 0x03#8, 0x40#8, 0x21#8], 4#9, idx, true⟩
    client := ⟨if r = .client then .sending else .idle, ⟨unit, 0x06#8, 0#16, 0#16⟩, 2#8, 2#8, 0#32⟩
    sstate := if r = .client then .listen else .respond
    inputs := ev }

/-- The state in which the frame `f` ends with the next step, on top of `s` (R190, R193). -/
def ending (f : List Byte) (s : State) : State := awaitingEnd f s

/-- The instruction decoded from the bytes of a frame. -/
abbrev decodesTo (f : List Byte) (i : Instr) : Prop := decode (.frame f) = .ok [i]

/-! ## WellFormed refuses -/

theorem test_malformed_of_four_bytes_refused :
    (Instr.readCoils 1#8 (.malformed [0#8, 0#8, 0#8, 0#8])).wellFormed = false := by decide

theorem test_malformed_too_long_refused :
    (Instr.writeSingleCoil 1#8 (.malformed (List.replicate 253 0#8))).wellFormed = false := by decide

theorem test_short_of_five_bytes_refused :
    (Instr.writeMultipleCoils 1#8 (.short [0#8, 0#8, 0#8, 0#8, 0#8])).wellFormed = false := by decide

theorem test_multi_too_long_refused :
    (Instr.writeMultipleRegisters 1#8 (.multi 0#16 1#16 2#8 (List.replicate 248 0#8))).wellFormed = false := by
  decide

theorem test_exception_too_long_refused :
    (Instr.exception 1#8 3#7 (List.replicate 253 0#8)).wellFormed = false := by decide

/-! ## Words of the spec's encodings (95_test_vectors.md 2.4; 10_state.md R31, R33) -/

theorem test_decode_readCoils : decodesTo
    [0x01, 0x01, 0x00, 0x00, 0x00, 0x08, 0x3D, 0xCC] (.readCoils 0x01 (.pair 0 8)) := by decide

theorem test_decode_readDiscreteInputs : decodesTo
    [0x01, 0x02, 0x00, 0x00, 0x00, 0x03, 0x38, 0x0B] (.readDiscreteInputs 0x01 (.pair 0 3)) := by decide

theorem test_decode_readHoldingRegisters : decodesTo
    [0x01, 0x03, 0xFF, 0xFF, 0x00, 0x02, 0xC4, 0x2F] (.readHoldingRegisters 0x01 (.pair 0xFFFF 2)) := by decide

theorem test_decode_readInputRegisters : decodesTo
    [0x01, 0x04, 0x00, 0x01, 0x00, 0x02, 0x20, 0x0B] (.readInputRegisters 0x01 (.pair 1 2)) := by decide

theorem test_decode_writeSingleCoil : decodesTo
    [0x00, 0x05, 0x00, 0x03, 0xFF, 0x00, 0x7D, 0xEB] (.writeSingleCoil 0x00 (.pair 3 0xFF00)) := by decide

theorem test_decode_writeSingleRegister : decodesTo
    [0x01, 0x06, 0x00, 0x63, 0xFF, 0xFF, 0x78, 0x64] (.writeSingleRegister 0x01 (.pair 99 0xFFFF)) := by decide

theorem test_decode_writeMultipleCoils : decodesTo
    [0x01, 0x0F, 0x00, 0x04, 0x00, 0x0A, 0x02, 0xCD, 0x01, 0x71, 0xEC] (.writeMultipleCoils 0x01 (.multi 4 10 2 [0xCD, 0x01])) := by decide

theorem test_decode_writeMultipleRegisters : decodesTo
    [0x01, 0x10, 0x00, 0x02, 0x00, 0x02, 0x04, 0x00, 0x0A, 0x01, 0x02, 0xD2, 0x25] (.writeMultipleRegisters 0x01 (.multi 2 2 4 [0x00, 0x0A, 0x01, 0x02])) := by decide

theorem test_decode_malformed_readHoldingRegisters : decodesTo
    [0x01, 0x03, 0x40, 0x21] (.readHoldingRegisters 0x01 (.malformed [])) := by decide

theorem test_decode_exception : decodesTo
    [0x01, 0x83, 0x02, 0xC0, 0xF1] (.exception 0x01 0x03 [0x02]) := by decide

theorem test_decode_openCmd : decode (.csrWrite 0x00 0x01#32) = .ok [.openCmd] := by decide

theorem test_decode_closeCmd : decode (.csrWrite 0x00 0x02#32) = .ok [.closeCmd] := by decide

theorem test_decode_goCmd : decode (.csrWrite 0x00 0x04#32) = .ok [.goCmd] := by decide

theorem test_decode_dsgoCmd : decode (.csrWrite 0x00 0x08#32) = .ok [.dsgoCmd] := by decide

theorem test_decode_crcInit : decode (.csrWrite 0x00 0xFFFFFFF0#32) = .ok [.crcInit] := by decide

theorem test_decode_ctrl_order : decode (.csrWrite 0x00 0x1F#32) =
    .ok [.closeCmd, .openCmd, .crcInit, .dsgoCmd, .goCmd] := by decide

theorem test_decode_crcDataWrite : decode (.csrWrite 0x11 0xFFFFFF5A#32) = .ok [.crcDataWrite 0x5A] := by decide

theorem test_decode_evtClear : decode (.csrWrite 0x02 0xFFFFFFE9#32) = .ok [.evtClear 0x09#5] := by decide

/-- RV7: a function code without a row. -/
theorem test_decode_unlisted : decode (.frame [0x01, 0x07, 0x41, 0xE2]) = .error (.unsupportedFunction 0x07) := by
  decide

/-- F10: one bit wrong. -/
theorem test_decode_bad_crc : decode (.frame [0x01, 0x06, 0x00, 0x00, 0x00, 0x7B, 0xC9, 0xE8]) =
    .error (.frameError .crcMismatch) := by decide

/-- The bits of every row of the opcode table decode to its instruction. -/
theorem test_table_words :
    [1, 2, 3, 4, 5, 6].map (decodeTableWord 8) =
      [some (.readCoils 1 (.pair 0 0)), some (.readDiscreteInputs 1 (.pair 0 0)),
        some (.readHoldingRegisters 1 (.pair 0 0)), some (.readInputRegisters 1 (.pair 0 0)),
        some (.writeSingleCoil 1 (.pair 0 0)), some (.writeSingleRegister 1 (.pair 0 0))] ∧
    [0x0F, 0x10, 0x80].map (decodeTableWord 8) =
      [some (.writeMultipleCoils 1 (.multi 0 0 0 [])), some (.writeMultipleRegisters 1 (.multi 0 0 0 [])),
        some (.exception 1 0 [0])] ∧
    [1, 2, 4, 8, 16].map (decodeTableWord 32) =
      [some .openCmd, some .closeCmd, some .goCmd, some .dsgoCmd, some .crcInit] ∧
    [0x11, 0x02].map (decodeTableWord 16) = [some (.crcDataWrite 0), some (.evtClear 0)] := by decide

/-! ## Values the spec's tables give -/

/-- 95_test_vectors.md 2.1, the check value (R140). -/
theorem test_crc_check_value :
    crc16 [0x31, 0x32, 0x33, 0x34, 0x35, 0x36, 0x37, 0x38, 0x39] = 0x4B37#16 := by decide

/-- 41_uart.md R159: 0x01 with even parity and one stop bit. -/
theorem test_char_bits : charBits 1#2 false 0x01#8 =
    [false, true, false, false, false, false, false, false, false, true, true] := by decide

/-- 95_test_vectors.md 2.2: the longest timeout. -/
theorem test_longest_timeout : tmoOf 65535 16777215 = 1099494786 := by decide

/-! ## Single steps (95_test_vectors.md) -/

/-- RV9. -/
theorem test_step_readCoils : onNext (step (ending [0x01, 0x01, 0x00, 0x00, 0x00, 0x08, 0x3D, 0xCC]
    { State.reset with mem := { Memory.reset with coils := [(3, 1#1)] } })) (fun t => (sent t)) =
    some ([0x01, 0x01, 0x01, 0x08, 0x50, 0x4E]) := by decide

/-- RV10: the PDU is `02 01 05`. -/
theorem test_step_readDiscreteInputs : onNext (step (ending [0x01, 0x02, 0x00, 0x00, 0x00, 0x03, 0x38, 0x0B]
    { State.reset with mem := { Memory.reset with di := [(0, 1#1), (2, 1#1)] } })) (fun t => (sent t).take 4) =
    some [0x01, 0x02, 0x01, 0x05] := by decide

/-- RV3 and R333: out of range, with the record. -/
theorem test_step_readHoldingRegisters : onNext (step (ending [0x01, 0x03, 0x00, 0x5F, 0x00, 0x0A, 0xF5, 0xDF] State.reset))
    (fun t => (sent t, readReg 0x13 t, readReg 0x02 t, t.rx.en)) =
    some ([0x01, 0x83, 0x02, 0xC0, 0xF1], 0x00030200#32, 0x02#32, false) := by decide

/-- RV11: the PDU is `04 04 12 34 AB CD`. -/
theorem test_step_readInputRegisters : onNext (step (ending [0x01, 0x04, 0x00, 0x01, 0x00, 0x02, 0x20, 0x0B]
    { State.reset with mem := { Memory.reset with ir := [(1, 0x1234#16), (2, 0xABCD#16)] } })) (fun t => (sent t).take 7) =
    some [0x01, 0x04, 0x04, 0x12, 0x34, 0xAB, 0xCD] := by decide

/-- RV12. -/
theorem test_step_writeSingleCoil : onNext (step (ending [0x01, 0x05, 0x00, 0x03, 0xFF, 0x00, 0x7C, 0x3A] State.reset))
    (fun t => (sent t, t.mem.coils)) = some ([0x01, 0x05, 0x00, 0x03, 0xFF, 0x00, 0x7C, 0x3A], [(3, 1#1)]) := by decide

/-- RV13. -/
theorem test_step_writeSingleCoil_value : onNext (step (ending [0x01, 0x05, 0x00, 0x03, 0x12, 0x34, 0x30, 0xBD] State.reset))
    (fun t => (sent t, t.mem)) = some ([0x01, 0x85, 0x03, 0x02, 0x91], Memory.reset) := by decide

/-- RV15. -/
theorem test_step_writeSingleRegister : onNext (step (ending [0x01, 0x06, 0x00, 0x63, 0xFF, 0xFF, 0x78, 0x64] State.reset))
    (fun t => (sent t, t.mem.hr)) = some ([0x01, 0x06, 0x00, 0x63, 0xFF, 0xFF, 0x78, 0x64], [(99, 0xFFFF#16)]) := by decide

/-- RV16. -/
theorem test_step_writeSingleRegister_range : onNext (step (ending [0x01, 0x06, 0x00, 0x64, 0x00, 0x01, 0x09, 0xD5] State.reset))
    (fun t => (sent t, t.mem)) = some ([0x01, 0x86, 0x02, 0xC3, 0xA1], Memory.reset) := by decide

/-- RV17: `coils[4..13]` become 1,0,1,1,0,0,1,1,1,0. -/
theorem test_step_writeMultipleCoils :
    onNext (step (ending [0x01, 0x0F, 0x00, 0x04, 0x00, 0x0A, 0x02, 0xCD, 0x01, 0x71, 0xEC] State.reset))
    (fun t => (sent t, readCells t.mem.coils 3 12)) =
    some ([0x01, 0x0F, 0x00, 0x04, 0x00, 0x0A, 0x94, 0x0D], [0, 1, 0, 1, 1, 0, 0, 1, 1, 1, 0, 0]) := by decide

/-- RV18. -/
theorem test_step_writeMultipleRegisters :
    onNext (step (ending [0x01, 0x10, 0x00, 0x02, 0x00, 0x02, 0x04, 0x00, 0x0A, 0x01, 0x02, 0xD2, 0x25] State.reset))
    (fun t => (sent t, t.mem.hr)) =
    some ([0x01, 0x10, 0x00, 0x02, 0x00, 0x02, 0xE0, 0x08], [(2, 0x000A#16), (3, 0x0102#16)]) := by decide

/-- RV19: a range partly outside the table writes nothing. -/
theorem test_step_writeMultipleRegisters_range :
    onNext (step (ending [0x01, 0x10, 0x00, 0x62, 0x00, 0x03, 0x06, 0x00, 0x01, 0x00, 0x02, 0x00, 0x03, 0x98, 0xF5] State.reset))
    (fun t => (sent t, t.mem)) = some ([0x01, 0x90, 0x02, 0xCD, 0xC1], Memory.reset) := by decide

/-- RV8: an exception frame sent as a request. -/
theorem test_step_exception : onNext (step (ending [0x01, 0x83, 0x02, 0xC0, 0xF1] State.reset))
    (fun t => (sent t, readReg 0x13 t)) = some ([0x01, 0x83, 0x01, 0x80, 0xF0], 0x00830100#32) := by decide

/-- CV4: an exception response, after one resend. -/
theorem test_exec_exception_response :
    onNext (exec (.exception 0x01 0x03 [0x02]) (waiting 0x03#8 10#16 1#8 []))
    (fun t => (readReg 0x0D t, readReg 0x02 t, t.client.state)) = some (0x00010202#32, 0x01#32, .idle) := by decide

/-- RV7. -/
theorem test_step_unlisted : onNext (step (ending [0x01, 0x07, 0x41, 0xE2] State.reset)) sent =
    some [0x01, 0x87, 0x01, 0x82, 0x30] := by decide

/-- 95_test_vectors.md program P3: a broadcast write is applied, recorded, and nothing is sent. -/
theorem test_step_broadcast : onNext (step (ending [0x00, 0x05, 0x00, 0x03, 0xFF, 0x00, 0x7D, 0xEB]
    { State.reset with cfg := { Cfg.reset with bcastEn := true } }))
    (fun t => (t.mem.coils, readReg 0x13 t, t.tx.active, t.rx.en)) =
    some ([(3, 1#1)], 0x01050000#32, false, true) := by decide

/-- F5: three bytes only. -/
theorem test_step_truncated : onNext (step (ending [0x01, 0x03, 0x40] State.reset))
    (fun t => (readReg 0x13 t, readReg 0x02 t, t.tx.active)) = some (0x00000002#32, 0x04#32, false) := by decide

/-- R364: after reset `OPEN` fails. -/
theorem test_exec_open_fails : onNext (exec .openCmd State.reset)
    (fun t => (readReg 0x01 t, readReg 0x02 t)) = some (0x00010000#32, 0x08#32) := by decide

/-- 95_test_vectors.md 2.2: a server opens. -/
theorem test_exec_open_server : onNext
    (exec .openCmd { State.reset with regs := { Regs.reset with baud := 9600#24, mode := 3#2, unit := 1#8 } })
    (fun t => (readReg 0x01 t, t.cfg.cb, t.cfg.t15, t.cfg.t35, t.cfg.tmo)) =
    some (0x00004005#32, 10#4, 15#5, 35#16, 9600#32) := by decide

/-- R365: `CLOSE` after one resend of an exchange in flight. -/
theorem test_exec_close : onNext (exec .closeCmd (waiting 0x03#8 10#16 1#8 []))
    (fun t => (readReg 0x0D t, readReg 0x01 t, readReg 0x02 t)) =
    some (0x00010005#32, 0x00020000#32, 0x09#32) := by decide

/-- CV9: `GO` while closed. -/
theorem test_exec_go_closed : onNext (exec .goCmd State.reset)
    (fun t => (readReg 0x0D t, readReg 0x01 t, readReg 0x02 t)) =
    some (0x00000005#32, 0x00030000#32, 0x09#32) := by decide

/-- CV15: the frame `GO` builds for 0x0F. -/
theorem test_exec_go_frame : onNext (exec .goCmd { idleClient 35#32 with
    regs := { Regs.reset with win := [(0, 0x01CD#16)], req0 := 0x0F01#16, req1 := 0x000A0004#32 } })
    (fun t => (sent t, t.tx.active)) =
    some ([0x01, 0x0F, 0x00, 0x04, 0x00, 0x0A, 0x02, 0xCD, 0x01, 0x71, 0xEC], true) := by decide

/-- H3. -/
theorem test_exec_dsgo_write : onNext (exec .dsgoCmd { State.reset with regs := { Regs.reset with
    dswin := [(0, 0x1234#16)], dsTable := 2#2, dsWr := true, dsStart := 5#16, dsCount := 1#8 } })
    (fun t => (t.mem.hr, readReg 0x10 t)) = some ([(5, 0x1234#16)], 0#32) := by decide

/-- H4. -/
theorem test_exec_dsgo_range : onNext (exec .dsgoCmd { State.reset with regs := { Regs.reset with
    dsTable := 2#2, dsStart := 0x60#16, dsCount := 10#8 } })
    (fun t => (readReg 0x10 t, t.regs.dswin)) = some (1#32, []) := by decide

/-- R131's example. -/
theorem test_exec_crcInit :
    onNext (exec .crcInit { State.reset with regs := { Regs.reset with hcrc := 0x1234#16 } }) (readReg 0x12) =
    some 0xFFFF#32 := by decide

/-- R132's example. -/
theorem test_exec_crcDataWrite : onNext (exec (.crcDataWrite 0x01#8) State.reset) (readReg 0x12) =
    some 0x807E#32 := by decide

/-- H2. -/
theorem test_exec_evtClear :
    onNext (exec (.evtClear 0x01#5) { State.reset with regs := { Regs.reset with evt := 0x05#5 } }) (readReg 0x02) =
    some 0x04#32 := by decide

/-- The state prepared for an opcode-table word runs it in the next step. -/
theorem test_withFetchWord : onNext (step (State.reset.withFetchWord 8 0x05)) (fun t => (sent t).take 2) =
    some [0x01, 0x05] ∧
    onNext (step (State.reset.withFetchWord 32 0x04)) (readReg 0x0D) = some 0x05#32 := by decide

/-! ## Hypotheses that are met, each clause at boundary values -/

theorem test_meets_DecodeEncodeAgree :
    (Instr.readCoils 1#8 (.malformed (List.replicate 252 0#8))).wellFormed = true ∧
    (Instr.writeSingleCoil 1#8 (.malformed [])).wellFormed = true ∧
    (Instr.writeMultipleCoils 1#8 (.multi 0#16 0#16 0#8 (List.replicate 247 0#8))).wellFormed = true ∧
    (Instr.writeMultipleRegisters 1#8 (.short [0#8, 0#8, 0#8, 0#8])).wellFormed = true ∧
    (Instr.exception 1#8 0x7F#7 (List.replicate 252 0#8)).wellFormed = true := by decide

theorem test_meets_FrameTestsInOrder :
    ([0x01#8, 0x03#8, 0x40#8].length < 4) ∧
    (4 ≤ [0x01#8, 0x03#8, 0x40#8, 0x20#8].length ∧ crcOk [0x01#8, 0x03#8, 0x40#8, 0x20#8] = false) ∧
    (4 ≤ [0x01#8, 0x03#8, 0x40#8, 0x21#8].length ∧ crcOk [0x01#8, 0x03#8, 0x40#8, 0x21#8] = true) := by decide

theorem test_meets_CrcResidueIsZero :
    4 ≤ [0x01#8, 0x03#8, 0x40#8, 0x21#8].length := by decide

theorem test_meets_CrcDetectsSingleBitErrors :
    4 ≤ [0x01#8, 0x03#8, 0x40#8, 0x21#8].length ∧ crcOk [0x01#8, 0x03#8, 0x40#8, 0x21#8] = true ∧
    3 < [0x01#8, 0x03#8, 0x40#8, 0x21#8].length ∧ 7 < 8 := by decide

theorem test_meets_CharacterRoundTrip :
    ∀ p ∈ [(0#2 : BitVec 2), 1#2, 2#2], p ≠ 3#2 ∧
    (((0x80#8).getLsbD 0 ^^ (0x80#8).getLsbD 1 ^^ (0x80#8).getLsbD 2 ^^ (0x80#8).getLsbD 3 ^^ (0x80#8).getLsbD 4 ^^
      (0x80#8).getLsbD 5 ^^ (0x80#8).getLsbD 6 ^^ (0x80#8).getLsbD 7) = true) := by decide

theorem test_meets_BitReadsAnswerTheRange :
    Canonical (server large) ∧ Serving 0x01#8 (server large) ∧ (server large).inst.extFc = true ∧
    1 ≤ (1#16).toNat ∧ (2000#16).toNat ≤ 2000 ∧
    (63536#16).toNat + (2000#16).toNat ≤ (server large).inst.nCoils ∧
    (63536#16).toNat + (2000#16).toNat ≤ (server large).inst.nDi := by decide

theorem test_meets_RegisterReadsAnswerTheRange :
    Canonical (server large) ∧ Serving 0x01#8 (server large) ∧ (server large).inst.extFc = true ∧
    1 ≤ (1#16).toNat ∧ (125#16).toNat ≤ 125 ∧
    (65411#16).toNat + (125#16).toNat ≤ (server large).inst.nHr ∧
    (65411#16).toNat + (125#16).toNat ≤ (server large).inst.nIr := by decide

theorem test_meets_SingleCoilWriteStores :
    Canonical (server large) ∧ Serving 0x01#8 (server large) ∧
    (0xFF00#16 = 0xFF00#16 ∨ 0xFF00#16 = 0x0000#16) ∧ (0xFFFF#16).toNat < (server large).inst.nCoils := by decide

theorem test_meets_SingleRegisterWriteStores :
    Canonical (server plain) ∧ Serving 0x01#8 (server plain) ∧ (99#16).toNat < (server plain).inst.nHr := by decide

theorem test_meets_MultipleCoilWriteStores :
    Canonical (server large) ∧ Serving 0x01#8 (server large) ∧ (server large).inst.extFc = true ∧
    1 ≤ (1968#16).toNat ∧ (1968#16).toNat ≤ 1968 ∧ (246#8).toNat = ((1968#16).toNat + 7) / 8 ∧
    (List.replicate 246 0xFF#8).length = (246#8).toNat ∧
    (63568#16).toNat + (1968#16).toNat ≤ (server large).inst.nCoils := by decide

theorem test_meets_MultipleRegisterWriteStores :
    Canonical (server large) ∧ Serving 0x01#8 (server large) ∧ (server large).inst.extFc = true ∧
    1 ≤ (123#16).toNat ∧ (123#16).toNat ≤ 123 ∧ (246#8).toNat = 2 * (123#16).toNat ∧
    (List.replicate 246 0xFF#8).length = (246#8).toNat ∧
    (65413#16).toNat + (123#16).toNat ≤ (server large).inst.nHr := by decide

theorem test_meets_WrongLengthIsIllegalDataValue :
    Canonical (server large) ∧ Serving 0x01#8 (server large) ∧ (server large).inst.extFc = true ∧
    ([0#8, 0#8, 0#8] : List Byte).length ≠ 4 ∧ ([0#8, 0#8, 0#8, 0#8] : List Byte).length < 5 ∧
    ([0#8] : List Byte).length ≠ (2#8).toNat ∧ (2#8).toNat ≠ ((1#16).toNat + 7) / 8 ∧
    (3#8).toNat ≠ 2 * (1#16).toNat := by decide

theorem test_meets_IllegalValuesAreRefused :
    Canonical (server large) ∧ Serving 0x01#8 (server large) ∧ (server large).inst.extFc = true ∧
    (0#16).toNat = 0 ∧ 2000 < (2001#16).toNat ∧ 125 < (126#16).toNat ∧ 1968 < (1969#16).toNat ∧
    123 < (124#16).toNat ∧ 0x0001#16 ≠ 0xFF00#16 ∧ 0x0001#16 ≠ 0x0000#16 := by decide

theorem test_meets_OutOfRangeIsIllegalDataAddress :
    Canonical (server State.reset.inst) ∧ Serving 0x01#8 (server State.reset.inst) ∧
    (server State.reset.inst).inst.extFc = true ∧ 1 ≤ (1#16).toNat ∧
    (server State.reset.inst).inst.nCoils < (100#16).toNat + (1#16).toNat ∧
    (server State.reset.inst).inst.nHr < (0#16).toNat + (101#16).toNat ∧
    (server State.reset.inst).inst.nCoils ≤ (100#16).toNat ∧ (server State.reset.inst).inst.nHr ≤ (100#16).toNat ∧
    (server State.reset.inst).inst.nDi < (99#16).toNat + (2#16).toNat ∧
    (server State.reset.inst).inst.nIr < (99#16).toNat + (2#16).toNat ∧
    (1#8).toNat = ((2#16).toNat + 7) / 8 ∧ [0#8].length = (1#8).toNat ∧
    (2#8).toNat = 2 * (1#16).toNat ∧ [0#8, 0#8].length = (2#8).toNat := by decide

theorem test_meets_UnsupportedIsIllegalFunction :
    Canonical (server plain) ∧ Serving 0x01#8 (server plain) ∧ (server plain).inst.extFc = false := by decide

theorem test_meets_BroadcastWriteIsAppliedSilently :
    ServingBroadcast (server large) ∧ ServingBroadcast (server plain) := by decide

theorem test_meets_OtherFramesAreDiscarded :
    frameOf (.readCoils 0x02#8 (.pair 0#16 1#16)) = some ⟨0x02#8, 0x01#8, [0#8, 0#8, 0#8, 1#8]⟩ ∧
    (server large).isOpen = true ∧ (server large).rx.en = true ∧ (server large).cfg.role = .server ∧
    (0x02#8 : Byte) ≠ (server large).cfg.unit ∧ (0x00#8 : Byte) ≠ (server large).cfg.unit ∧
    { server large with cfg := { cfgOf .server with bcastEn := false } }.cfg.bcastEn = false ∧
    ServingBroadcast (server plain) := by decide

/-- A frame without operands to this unit with the given function code, whole in the receiver of a server. -/
def endingFc (p : Params) (fc : Byte) : State := ending (encodeFrame 0x01#8 fc []) (State.resetOf p)

/-- A frame without operands, of the given address and function code, whole in the receiver of a server at unit 1. -/
def endingOther (p : Params) (bcast : Bool) (addr fc : Byte) : State :=
  ending (encodeFrame addr fc []) { State.resetOf p with cfg := { Cfg.reset with bcastEn := bcast } }

theorem test_meets_OtherFramesAreDiscarded_step :
    ∀ x ∈ [(endingOther large true 0x02#8 0x07#8, (⟨0x02#8, 0x07#8, []⟩ : Frame)),
        (endingOther large false 0x00#8 0x05#8, ⟨0x00#8, 0x05#8, []⟩),
        (endingOther large true 0x00#8 0x00#8, ⟨0x00#8, 0x00#8, []⟩),
        (endingOther large true 0x00#8 0x0E#8, ⟨0x00#8, 0x0E#8, []⟩),
        (endingOther large true 0x00#8 0x11#8, ⟨0x00#8, 0x11#8, []⟩),
        (endingOther large true 0x00#8 0x7F#8, ⟨0x00#8, 0x7F#8, []⟩),
        (endingOther plain true 0x00#8 0x10#8, ⟨0x00#8, 0x10#8, []⟩)],
      x.1.rstN = true ∧ x.1.inputs = [.idleTick] ∧ x.1.tx.active = false ∧ Serving x.1.cfg.unit x.1 ∧
      x.1.client.state = .idle ∧ x.1.rx.state = .ctrlWait ∧ x.1.cfg.t35.toNat ≤ x.1.sil.toNat + 1 ∧
      decodeFrame x.1.rx.overrun x.1.rx.charErr x.1.rx.gap (readCells x.1.rx.buf 0 x.1.rx.len.toNat) = .ok x.2 ∧
      x.2.addr ≠ x.1.cfg.unit ∧
      (x.2.addr ≠ 0#8 ∨ x.1.cfg.bcastEn = false ∨
        (x.2.fc ∉ [0x05#8, 0x06#8] ∧ (x.1.inst.extFc = false ∨ x.2.fc ∉ [0x0F#8, 0x10#8]))) := by decide

theorem test_meets_OnlySuccessfulWritesChangeTables :
    ∃ t, frameOf (.writeSingleCoil 0x01#8 (.pair 3#16 0xFF00#16)) =
      some ⟨0x01#8, 0x05#8, [0x00#8, 0x03#8, 0xFF#8, 0x00#8]⟩ ∧
      exec (.writeSingleCoil 0x01#8 (.pair 3#16 0xFF00#16)) (server plain) = .next t ∧ t.mem ≠ (server plain).mem := ⟨_, rfl, rfl, by decide⟩

theorem test_meets_FramesNeedTheReceiver :
    frameOf (.exception 0x01#8 3#7 []) = some ⟨0x01#8, 0x83#8, []⟩ ∧ State.reset.isOpen = false ∧
    (idleClient 0#32).isOpen = true ∧ (idleClient 0#32).rx.en = false := by decide

theorem test_meets_BitResponseIsStored :
    Canonical (waiting 0x01#8 2000#16 0#8 []) ∧ Awaiting (waiting 0x01#8 2000#16 0#8 []) ∧
    pairPayload (.malformed (0xFA#8 :: List.replicate 250 0xFF#8)) = 0xFA#8 :: List.replicate 250 0xFF#8 ∧
    frameOf (.readDiscreteInputs 0x01#8 (.malformed [0x01#8, 0x01#8])) = some ⟨0x01#8, 0x02#8, [0x01#8, 0x01#8]⟩ ∧
    (waiting 0x01#8 2000#16 0#8 []).client.rq.unit = 0x01#8 ∧
    (0xFA#8 :: List.replicate 250 0xFF#8).length = 1 + ((2000#16).toNat + 7) / 8 ∧
    (0xFA#8).toNat = ((2000#16).toNat + 7) / 8 ∧
    (waiting 0x02#8 1#16 0#8 []).client.rq.fc = 0x02#8 ∧ [0x01#8, 0x01#8].length = 1 + ((1#16).toNat + 7) / 8 ∧
    (0x01#8).toNat = ((1#16).toNat + 7) / 8 := by decide

theorem test_meets_RegisterResponseIsStored :
    Canonical (waiting 0x03#8 125#16 0#8 []) ∧ Awaiting (waiting 0x03#8 125#16 0#8 []) ∧
    frameOf (.readInputRegisters 0x01#8 (.malformed [0x02#8, 0x12#8, 0x34#8])) =
      some ⟨0x01#8, 0x04#8, [0x02#8, 0x12#8, 0x34#8]⟩ ∧
    (waiting 0x04#8 1#16 0#8 []).client.rq.unit = 0x01#8 ∧ (waiting 0x04#8 1#16 0#8 []).client.rq.fc = 0x04#8 ∧
    [0x02#8, 0x12#8, 0x34#8].length = 1 + 2 * (1#16).toNat ∧ (0x02#8).toNat = 2 * (1#16).toNat ∧
    (0xFA#8 :: List.replicate 250 0xFF#8).length = 1 + 2 * (125#16).toNat ∧ (0xFA#8).toNat = 2 * (125#16).toNat := by decide

theorem test_meets_WriteResponseResolves :
    Awaiting (waiting 0x06#8 7#16 0#8 []) ∧ Awaiting (waiting 0x10#8 123#16 0#8 []) ∧
    frameOf (.writeSingleRegister 0x01#8 (.pair 5#16 7#16)) = some ⟨0x01#8, 0x06#8, [0x00#8, 0x05#8, 0x00#8, 0x07#8]⟩ ∧
    [0x00#8, 0x05#8, 0x00#8, 0x07#8] = readCells (waiting 0x06#8 7#16 0#8 []).tx.buf 2 4 ∧
    frameOf (.writeMultipleRegisters 0x01#8 (.short [0x00#8, 0x05#8, 0x00#8, 0x7B#8])) =
      some ⟨0x01#8, 0x10#8, [0x00#8, 0x05#8, 0x00#8, 0x7B#8]⟩ ∧
    [0x00#8, 0x05#8, 0x00#8, 0x7B#8] = readCells (waiting 0x10#8 123#16 0#8 []).tx.buf 2 4 := by decide

theorem test_meets_ExceptionResponseResolves :
    Awaiting (waiting 0x03#8 1#16 2#8 []) ∧ (0x01#8 : Byte) = (waiting 0x03#8 1#16 2#8 []).client.rq.unit ∧
    highFc 3#7 = (waiting 0x03#8 1#16 2#8 []).client.rq.fc ||| 0x80#8 := by decide

theorem test_meets_OtherFramesAreIgnoredByClient :
    Awaiting (waiting 0x03#8 1#16 0#8 []) ∧
    frameOf (.readHoldingRegisters 0x02#8 (.pair 0#16 1#16)) = some ⟨0x02#8, 0x03#8, [0#8, 0#8, 0#8, 1#8]⟩ ∧
    (0x02#8 : Byte) ≠ (waiting 0x03#8 1#16 0#8 []).client.rq.unit ∧
    frameOf (.readCoils 0x01#8 (.pair 0#16 1#16)) = some ⟨0x01#8, 0x01#8, [0#8, 0#8, 0#8, 1#8]⟩ ∧
    (0x01#8 : Byte) ≠ (waiting 0x03#8 1#16 0#8 []).client.rq.fc ∧
    (0x01#8 : Byte) ≠ (waiting 0x03#8 1#16 0#8 []).client.rq.fc ||| 0x80#8 := by decide

/-- A waiting client, the given ticks into its response window of 9600, at the end of a frame without operands. -/
def endingIgnored (addr fc : Byte) (left : Byte) (elapsed : BitVec 32) : State :=
  { waiting 0x03#8 1#16 left [.idleTick] with
    rx := ⟨.ctrlWait, true, writeCells [] 0 (encodeFrame addr fc []), 4#9, false, false, false⟩
    sil := 34#32
    client := { (waiting 0x03#8 1#16 left []).client with respElapsed := elapsed } }

theorem test_meets_OtherFramesAreIgnoredByClient_step :
    ∀ x ∈ [(endingIgnored 0x01#8 0x07#8 0#8 9598#32, (⟨0x01#8, 0x07#8, []⟩ : Frame)),
        (endingIgnored 0x02#8 0x03#8 0#8 9599#32, ⟨0x02#8, 0x03#8, []⟩),
        (endingIgnored 0x01#8 0x00#8 1#8 9599#32, ⟨0x01#8, 0x00#8, []⟩),
        (endingIgnored 0x01#8 0x7F#8 0#8 4294967294#32, ⟨0x01#8, 0x7F#8, []⟩)],
      x.1.rstN = true ∧ x.1.inputs = [.idleTick] ∧ Awaiting x.1 ∧ x.1.tx.active = false ∧ x.1.rx.state = .ctrlWait ∧
      x.1.cfg.t35.toNat ≤ x.1.sil.toNat + 1 ∧
      decodeFrame x.1.rx.overrun x.1.rx.charErr x.1.rx.gap (readCells x.1.rx.buf 0 x.1.rx.len.toNat) = .ok x.2 ∧
      (x.2.addr ≠ x.1.client.rq.unit ∨
        (x.2.fc ≠ x.1.client.rq.fc ∧ x.2.fc ≠ x.1.client.rq.fc ||| 0x80#8)) ∧
      x.1.client.respElapsed.toNat + 1 < 4294967296 := by decide

theorem test_meets_OtherFramesAreIgnoredByClient_window :
    (endingIgnored 0x01#8 0x07#8 0#8 9598#32).client.respElapsed.toNat + 1 <
      (endingIgnored 0x01#8 0x07#8 0#8 9598#32).cfg.tmo.toNat ∧
    (endingIgnored 0x02#8 0x03#8 0#8 9599#32).cfg.tmo.toNat ≤
      (endingIgnored 0x02#8 0x03#8 0#8 9599#32).client.respElapsed.toNat + 1 := by decide

theorem test_meets_BadResponseRetriesOrFails :
    Awaiting (waiting 0x03#8 1#16 0#8 []) ∧ (waiting 0x03#8 1#16 0#8 []).tx.active = false ∧
    frameOf (.exception 0x01#8 3#7 []) = some ⟨0x01#8, 0x83#8, []⟩ ∧
    (0x83#8 : Byte) = (waiting 0x03#8 1#16 0#8 []).client.rq.fc ||| 0x80#8 ∧ ([] : List Byte).length ≠ 1 ∧
    ¬([0x01#8, 0xFF#8].length = 1 + ((9#16).toNat + 7) / 8 ∧ (0x01#8).toNat = ((9#16).toNat + 7) / 8) ∧
    ¬([0x02#8, 0xFF#8].length = 1 + 2 * (1#16).toNat ∧ (0x02#8).toNat = 2 * (1#16).toNat) ∧
    [0x00#8, 0x05#8, 0x00#8, 0x08#8] ≠ readCells (waiting 0x06#8 7#16 0#8 []).tx.buf 2 4 ∧
    (waiting 0x03#8 1#16 0#8 []).client.retryLeft = 0#8 ∧ (waiting 0x03#8 1#16 1#8 []).client.retryLeft ≠ 0#8 := by decide

/-- A waiting client whose bad frame ends with the next tick. -/
def endingBadResponse (left : Byte) (r : Rx) : State :=
  { waiting 0x03#8 1#16 left [.idleTick] with rx := r, sil := 34#32 }

theorem test_meets_BadResponseRetriesOrFails_frameError :
    ∀ x ∈ [(endingBadResponse 0#8 ⟨.ctrlWait, true, [], 256#9, true, false, false⟩, FrameError.overrun),
        (endingBadResponse 1#8 ⟨.ctrlWait, true, [], 4#9, false, true, false⟩, FrameError.charError),
        (endingBadResponse 0#8 ⟨.ctrlWait, true, [], 3#9, false, false, false⟩, FrameError.truncated),
        (endingBadResponse 255#8 ⟨.ctrlWait, true, [], 4#9, false, false, false⟩, FrameError.crcMismatch)],
      x.1.rstN = true ∧ x.1.inputs = [.idleTick] ∧ Awaiting x.1 ∧ x.1.tx.active = false ∧ x.1.rx.state = .ctrlWait ∧
      x.1.cfg.t35.toNat ≤ x.1.sil.toNat + 1 ∧
      decodeFrame x.1.rx.overrun x.1.rx.charErr x.1.rx.gap (readCells x.1.rx.buf 0 x.1.rx.len.toNat) = .error x.2 := by decide

theorem test_meets_OpenStartsASession :
    State.reset.isOpen = false ∧ OpenLegal { Regs.reset with baud := 1#24, ift := 16#16, timeoutMs := 1#16 } ∧
    OpenLegal { Regs.reset with baud := 9600#24, mode := 3#2, unit := 1#8, timeoutMs := 0#16, line := 0x68#7 } := by decide

theorem test_meets_OpenTurnedAway :
    (server large).isOpen = true ∧ State.reset.isOpen = false ∧ ¬OpenLegal State.reset.regs ∧
    ¬OpenLegal { Regs.reset with baud := 9600#24, ift := 15#16 } := by decide

theorem test_meets_CloseEndsTheSession :
    (server large).isOpen = true ∧ (waiting 0x03#8 1#16 0#8 []).isOpen = true ∧ State.reset.isOpen = false := by decide

/-- An idle client whose host has described a request. -/
def asked (sil : BitVec 32) (req0 : Word) (req1 : Reg) : State :=
  { idleClient sil with regs := { Regs.reset with req0 := req0, req1 := req1 } }

theorem test_meets_GoStartsTheExchange :
    ∀ x ∈ [asked 35#32 0x0101#16 0x07D00000#32, asked 34#32 0x0401#16 0x007D0000#32, asked 35#32 0x0500#16 0x00010000#32,
        asked 0#32 0x0600#16 0xFFFFFFFF#32],
      Canonical x ∧ x.isOpen = true ∧ x.cfg.role = .client ∧ x.client.state = .idle ∧ x.tx.active = false := by decide

theorem test_meets_GoStartsTheExchange_request :
    ∀ x ∈ [asked 35#32 0x0101#16 0x07D00000#32, asked 34#32 0x0401#16 0x007D0000#32, asked 35#32 0x0500#16 0x00010000#32,
        asked 0#32 0x0600#16 0xFFFFFFFF#32, asked 0#32 0x0F00#16 0x07B00000#32, asked 0#32 0x1000#16 0x007B0000#32],
      RequestLegal x.inst ⟨x.regs.req0.extractLsb' 0 8, x.regs.req0.extractLsb' 8 8, x.regs.req1.extractLsb' 0 16,
        x.regs.req1.extractLsb' 16 16⟩ := by decide

theorem test_meets_GoTurnedAway :
    State.reset.isOpen = false ∧ (server large).isOpen = true ∧ (server large).cfg.role = .server ∧
    (waiting 0x03#8 1#16 0#8 []).client.state ≠ .idle ∧
    (idleClient 0#32).isOpen = true ∧ (idleClient 0#32).cfg.role = .client ∧ (idleClient 0#32).client.state = .idle ∧
    ¬RequestLegal (idleClient 0#32).inst ⟨(idleClient 0#32).regs.req0.extractLsb' 0 8,
      (idleClient 0#32).regs.req0.extractLsb' 8 8, (idleClient 0#32).regs.req1.extractLsb' 0 16,
      (idleClient 0#32).regs.req1.extractLsb' 16 16⟩ := by decide

/-- A block whose host asks for a data-store access. -/
def asking (p : Params) (wr : Bool) (table : BitVec 2) (start : Word) (count : BitVec 8) : State :=
  { State.resetOf p with
    regs := { Regs.reset with dsTable := table, dsWr := wr, dsStart := start, dsCount := count } }

theorem test_meets_DsgoReadsTheRange :
    Canonical (asking plain false 0#2 99#16 1#8) ∧ (asking plain false 0#2 99#16 1#8).regs.dsWr = false ∧
    (99#16).toNat + (1#8).toNat ≤ (asking plain false 0#2 99#16 1#8).inst.nCoils ∧ (125#8).toNat ≤ 125 ∧
    (asking large false 1#2 65411#16 125#8).regs.dsTable = 1#2 ∧
    (65411#16).toNat + (125#8).toNat ≤ (asking large false 1#2 65411#16 125#8).inst.nDi ∧
    (65411#16).toNat + (125#8).toNat ≤ (asking large false 2#2 65411#16 125#8).inst.nHr ∧
    (65411#16).toNat + (125#8).toNat ≤ (asking large false 3#2 65411#16 125#8).inst.nIr := by decide

theorem test_meets_DsgoWritesTheRange :
    Canonical (asking plain true 0#2 99#16 1#8) ∧ (asking plain true 0#2 99#16 1#8).regs.dsWr = true ∧
    (99#16).toNat + (1#8).toNat ≤ (asking plain true 0#2 99#16 1#8).inst.nCoils ∧ (125#8).toNat ≤ 125 ∧
    (asking large true 1#2 65411#16 125#8).regs.dsTable = 1#2 ∧
    (65411#16).toNat + (125#8).toNat ≤ (asking large true 1#2 65411#16 125#8).inst.nDi ∧
    (65411#16).toNat + (125#8).toNat ≤ (asking large true 2#2 65411#16 125#8).inst.nHr ∧
    (65411#16).toNat + (125#8).toNat ≤ (asking large true 3#2 65411#16 125#8).inst.nIr := by decide

theorem test_meets_DsgoRejectsIllegalRange :
    ((asking large false 0#2 0#16 0#8).regs.dsTable = 0#2 ∧ (asking large false 0#2 0#16 0#8).regs.dsCount.toNat = 0) ∧
    ((asking large false 1#2 0#16 126#8).regs.dsTable = 1#2 ∧ 125 < (asking large false 1#2 0#16 126#8).regs.dsCount.toNat) ∧
    (asking plain true 3#2 100#16 1#8).regs.dsTable = 3#2 ∧
    100 < (asking plain true 3#2 100#16 1#8).regs.dsStart.toNat + (asking plain true 3#2 100#16 1#8).regs.dsCount.toNat := by decide

theorem test_meets_EvtClearClearsExactly :
    ∃ t, step { State.reset with regs := { Regs.reset with evt := 0x1F#5 } } = .next t ∧ State.reset.inputs = [] := ⟨_, rfl, rfl⟩

theorem test_meets_StepRunsHostInstruction :
    { State.reset with inputs := [.csrWrite 0 4#32] }.rstN = true ∧
    decode (.csrWrite 0x00 0x04#32) = .ok [.goCmd] := by decide

/-- The frame of RV9, whole in the receiver. -/
def endingRead : State := ending [0x01, 0x01, 0x00, 0x00, 0x00, 0x08, 0x3D, 0xCC] State.reset

theorem test_meets_StepRunsFrameInstruction :
    endingRead.rstN = true ∧ endingRead.inputs = [.idleTick] ∧ endingRead.isOpen = true ∧
    endingRead.tx.active = false ∧ endingRead.rx.en = true ∧ endingRead.rx.state = .ctrlWait ∧
    endingRead.rx.overrun = false ∧ endingRead.rx.charErr = false ∧ endingRead.rx.gap = false ∧
    decode (.frame (readCells endingRead.rx.buf 0 endingRead.rx.len.toNat)) = .ok [.readCoils 1#8 (.pair 0#16 8#16)] ∧
    endingRead.cfg.t35.toNat ≤ endingRead.sil.toNat + 1 := by decide

theorem test_meets_CommandsRunInOrder :
    { State.reset with inputs := [.csrWrite 0 0x1F#32] }.rstN = true := by decide

theorem test_meets_ResetMeetsTheInvariant :
    Config.legal ⟨1, 1, 1, 1, false⟩ = true ∧ Config.legal large = true := by decide

theorem test_meets_Inv_server :
    Inv (server State.reset.inst) := ⟨by decide, by decide, by decide, by decide, by decide, by decide, by decide,
    by decide, by decide⟩

theorem test_meets_Inv_client :
    Inv (waiting 0x03#8 125#16 1#8 [.idleTick]) := ⟨by decide, by decide, by decide, by decide, by decide,
    by decide, by decide, by decide, by decide⟩

theorem test_meets_StepKeepsTheInvariant :
    ∃ t, Inv (waiting 0x03#8 125#16 1#8 [.idleTick]) ∧
      step (waiting 0x03#8 125#16 1#8 [.idleTick]) = .next t := ⟨_, test_meets_Inv_client, rfl⟩

theorem test_meets_StepKeepsCanonicalForm :
    ∃ t, Canonical (waiting 0x03#8 125#16 1#8 [.idleTick]) ∧
      step (waiting 0x03#8 125#16 1#8 [.idleTick]) = .next t := ⟨_, by decide, rfl⟩

theorem test_meets_ClosedBlockIgnoresTheLine :
    State.reset.isOpen = false ∧ isLineEvent (.rxChar 0#8 true) = true ∧ isLineEvent .idleTick = true ∧
    isLineEvent .txChar = true ∧ isLineEvent (.rxLine []) = true ∧ State.reset.inputs = [] ∧
    onNext (exec .openCmd { State.reset with regs := { Regs.reset with baud := 1#24 } }) (fun t => t.isOpen) = some true := by decide

theorem test_meets_LineEventsRespectTheHost :
    ∃ t, step (waiting 0x03#8 125#16 1#8 [.idleTick]) = .next t ∧ isLineEvent .idleTick = true := ⟨_, rfl, rfl⟩

/-- F5: three bytes, whole in the receiver of a server. -/
def endingBad : State := ending [0x01, 0x03, 0x40] State.reset

theorem test_meets_ServerDropsBadFrames :
    endingBad.rstN = true ∧ endingBad.inputs = [.idleTick] ∧ endingBad.isOpen = true ∧ endingBad.tx.active = false ∧
    endingBad.cfg.role = .server ∧ endingBad.client.state = .idle ∧ endingBad.rx.en = true ∧
    endingBad.rx.state = .ctrlWait ∧ endingBad.cfg.t35.toNat ≤ endingBad.sil.toNat + 1 ∧
    decodeFrame endingBad.rx.overrun endingBad.rx.charErr endingBad.rx.gap
      (readCells endingBad.rx.buf 0 endingBad.rx.len.toNat) = .error .truncated := by decide

theorem test_meets_SilenceMovesTheReceiver :
    ∀ x ∈ [serverIn large .init 33#32 [.idleTick], serverIn large .init 34#32 [.idleTick],
        serverIn large .idle 4294967295#32 [.idleTick], serverIn large .recv 13#32 [.idleTick],
        serverIn large .recv 14#32 [.idleTick], serverIn large .ctrlWait 33#32 [.idleTick],
        waiting 0x03#8 1#16 0#8 [.idleTick], { idleClient 0#32 with inputs := [.idleTick] }],
      x.rstN = true ∧ x.inputs = [.idleTick] ∧ x.isOpen = true ∧ x.tx.active = false ∧ x.client.state ≠ .sending ∧
      ¬FrameEnds x.cfg (min (x.sil.toNat + 1) 4294967295) x.rx ∧
      (x.client.state = .await → x.client.respElapsed.toNat + 1 < x.cfg.tmo.toNat) := by decide

theorem test_meets_UnimplementedFunctionIsAnswered :
    ∀ x ∈ [(endingFc large 0x07#8, 0x07#8), (endingFc large 0x00#8, 0x00#8), (endingFc large 0x11#8, 0x11#8),
        (endingFc large 0x80#8, 0x80#8), (endingFc large 0xFF#8, 0xFF#8), (endingFc plain 0x02#8, 0x02#8)],
      Canonical x.1 ∧ x.1.rstN = true ∧ x.1.inputs = [.idleTick] ∧ x.1.tx.active = false ∧ Serving x.1.cfg.unit x.1 ∧
      x.1.client.state = .idle ∧ x.1.rx.state = .ctrlWait ∧ x.1.cfg.t35.toNat ≤ x.1.sil.toNat + 1 ∧
      decodeFrame x.1.rx.overrun x.1.rx.charErr x.1.rx.gap (readCells x.1.rx.buf 0 x.1.rx.len.toNat) =
        .ok ⟨x.1.cfg.unit, x.2, []⟩ ∧
      x.2 ∉ [0x01#8, 0x03#8, 0x05#8, 0x06#8] ∧
      (x.1.inst.extFc = false ∨ x.2 ∉ [0x02#8, 0x04#8, 0x0F#8, 0x10#8]) := by decide

/-- A waiting client with its receiver in a given state, the given ticks into its response window of 9600. -/
def expiring (left : Byte) (r : RxState) (elapsed : BitVec 32) (ev : Event) : State :=
  { waiting 0x03#8 1#16 left [ev] with
    rx := { Rx.reset with state := r, en := true, len := 3#9 }
    sil := 20#32
    client := { (waiting 0x03#8 1#16 left []).client with respElapsed := elapsed } }

theorem test_meets_TimeoutRetriesOrFails :
    ∀ x ∈ [expiring 0#8 .idle 9599#32 .idleTick, expiring 1#8 .recv 9599#32 .idleTick,
        expiring 255#8 .ctrlWait 4294967294#32 .idleTick],
      Canonical x ∧ x.rstN = true ∧ Awaiting x ∧ x.tx.active = false ∧ x.inputs = [.idleTick] ∧
      ¬FrameEnds x.cfg (min (x.sil.toNat + 1) 4294967295) x.rx ∧
      x.cfg.tmo.toNat ≤ x.client.respElapsed.toNat + 1 ∧ x.client.respElapsed.toNat + 1 < 4294967296 := by decide

theorem test_meets_TimeoutRetriesOrFails_char :
    ∀ x ∈ [expiring 0#8 .idle 9590#32 (.rxChar 0x55#8 false), expiring 1#8 .recv 9590#32 (.rxChar 0x55#8 false),
        expiring 255#8 .ctrlWait 4294967285#32 (.rxChar 0x55#8 false)],
      Canonical x ∧ x.rstN = true ∧ Awaiting x ∧ x.tx.active = false ∧ x.inputs = [.rxChar 0x55#8 false] ∧
      x.cfg.tmo.toNat ≤ x.client.respElapsed.toNat + x.cfg.cb.toNat ∧
      x.client.respElapsed.toNat + x.cfg.cb.toNat < 4294967296 := by decide

theorem test_meets_TxCharSendsTheNextByte :
    ∀ x ∈ [sending .server 1#8 0#9 [.txChar], sending .client 1#8 2#9 []], x.rstN = true ∧
      (x.inputs = [.txChar] ∨ x.inputs = []) ∧ x.isOpen = true ∧ x.tx.active = true ∧ x.tx.idx + 1#9 ≠ x.tx.len := by decide

theorem test_meets_LastCharacterEndsTransmission :
    ∀ x ∈ [(sending .server 1#8 3#9 [.txChar], Role.server, 1#8), (sending .client 1#8 3#9 [.txChar], Role.client, 1#8),
        (sending .client 0#8 3#9 [.txChar], Role.client, 0#8)],
      x.1.rstN = true ∧ x.1.inputs = [.txChar] ∧ x.1.isOpen = true ∧ x.1.tx.active = true ∧
      x.1.tx.idx + 1#9 = x.1.tx.len ∧ x.1.cfg.role = x.2.1 ∧ x.1.client.rq.unit = x.2.2 := by decide

/-- A client with its frame ready, on a line silent for `sil` ticks. -/
def ready (sil : BitVec 32) : State :=
  { idleClient sil with
    tx := ⟨writeCells [] 0 [0x01#8, 0x03#8, 0x40#8, 0x21#8], 4#9, 0#9, false⟩
    client := ⟨.sending, ⟨1#8, 0x03#8, 0#16, 1#16⟩, 0#8, 0#8, 0#32⟩
    inputs := [.idleTick] }

theorem test_meets_ClientSendsAfterSilence :
    ∀ x ∈ [ready 33#32, ready 34#32, ready 4294967295#32], x.rstN = true ∧ x.inputs = [.idleTick] ∧ x.isOpen = true ∧
      x.tx.active = false ∧ x.rx.en = false ∧ x.client.state = .sending := by decide

/-- A server that has received `len` bytes. -/
def receiving (r : RxState) (len : BitVec 9) : State :=
  { serverIn large r 14#32 [.rxChar 0x55#8 true] with rx := ⟨r, true, [], len, false, false, false⟩ }

theorem test_meets_ReceiverStoresCharacters :
    ∀ x ∈ [receiving .init 0#9, receiving .idle 0#9, receiving .recv 255#9, receiving .recv 256#9,
        receiving .ctrlWait 256#9, expiring 0#8 .recv 9589#32 (.rxChar 0x55#8 true),
        { idleClient 0#32 with inputs := [.rxChar 0x55#8 true] }],
      Canonical x ∧ x.rstN = true ∧ x.inputs = [.rxChar 0x55#8 true] ∧ x.isOpen = true ∧ x.tx.active = false ∧
      (x.client.state = .await → x.client.respElapsed.toNat + x.cfg.cb.toNat < x.cfg.tmo.toNat) := by decide

theorem test_meets_ReceiverStoresCharacters_samples :
    sampledChar (server large).cfg.parity [true, false, false, false, false, false, false, false, true] =
      (0x01#8, false) := by decide

/-- A server about to receive the frame `01 03 40 21` with the longest gaps that do not spoil it. -/
def receivingFrame : State :=
  { server State.reset.inst with
    inputs := lineScript [(0, 0x01#8), (14, 0x03#8), (14, 0x40#8), (14, 0x21#8)] ++ List.replicate 34 .idleTick ++
      [.idleTick] }

theorem test_meets_Inv_receivingFrame :
    Inv receivingFrame := ⟨by decide, by decide, by decide, by decide, by decide, by decide, by decide,
    by decide, by decide⟩

theorem test_meets_FrameArrivesWhole :
    receivingFrame.rstN = true ∧ receivingFrame.cfg.role = .server ∧ receivingFrame.rx.en = true ∧
    receivingFrame.rx.state = .idle ∧ ([] : List Byte).length ≤ 252 ∧
    [(0, 0x01#8), (14, 0x03#8), (14, 0x40#8), (14, 0x21#8)].map Prod.snd = encodeFrame 0x01#8 0x03#8 [] ∧
    (∀ x ∈ [(0, 0x01#8), (14, 0x03#8), (14, 0x40#8), (14, 0x21#8)].tail, x.1 < receivingFrame.cfg.t15.toNat) ∧
    receivingFrame.inputs = lineScript [(0, 0x01#8), (14, 0x03#8), (14, 0x40#8), (14, 0x21#8)] ++
      List.replicate (receivingFrame.cfg.t35.toNat - 1) .idleTick ++ [.idleTick] := by decide

theorem test_meets_ResetEventResetsTheBlock :
    (waiting 0x03#8 1#16 0#8 [.reset]).inputs = [.reset] ∧
    { State.reset with rstN := false, inputs := [.csrWrite 0 1#32] }.rstN = false ∧
    Event.csrWrite 0 1#32 ≠ .reset ∧ Event.csrWrite 0 1#32 ≠ .rstRise ∧
    { State.reset with rstN := false, inputs := [.rstRise] }.inputs = [.rstRise] := by decide

theorem test_meets_ReadsReturnTheFields :
    { State.reset with inputs := [.csrRead 0x01] }.rstN = true ∧ State.reset.client.state = .idle ∧
    State.reset.regs.result.ferr = none ∧ 124 < 125 := by decide

theorem test_meets_PlainWritesStoreTheirFields :
    { State.reset with inputs := [.csrWrite 0x17C 1#32] }.rstN = true ∧
    ∀ n ∈ [0x01, 0x03, 0x10, 0x12, 0x14, 0xFF, 0x100, 0x17C, 0x17D, 0x1FF, 0x200, 0x27C, 0x27D],
      n ≠ 0x00 ∧ n ≠ 0x02 ∧ n ≠ 0x11 := by decide

end Sys2Proof.Tests
end

section
/-! PROOFS. Function codes on the line: every frame, with or without a row in the function-code map, reaches the engine of the role
through the router's first check (R119, R193, R221 to R223), and an unimplemented one is answered `ILLEGAL_FUNCTION`. -/

namespace Sys2Proof.Machine

/-! ## Fields of a frame -/

@[simp] theorem hi8_be16 (h l : Byte) : hi8 (be16 h l) = h :=
  BitVec.extractLsb'_append_eq_left

@[simp] theorem lo8_be16 (h l : Byte) : lo8 (be16 h l) = l :=
  BitVec.extractLsb'_append_eq_right

/-- The operands keep every byte of the payload they are read from (R93, R94). -/
@[simp] theorem pairPayload_pairOf (p : List Byte) : pairPayload (pairOf p) = p := by
  unfold pairOf
  split
  · simp [pairPayload]
  · rfl

/-- The operands keep every byte of the payload they are read from (R95, R96). -/
@[simp] theorem multiPayload_multiOf (p : List Byte) : multiPayload (multiOf p) = p := by
  unfold multiOf
  split
  · simp [multiPayload]
  · rfl

/-- A function code with bit 7 set is that of an exception with its low seven bits (R106). -/
theorem highFc_extractLsb' (fc : Byte) (h : fc.getLsbD 7 = true) : highFc (fc.extractLsb' 0 7) = fc := by
  revert fc
  decide

/-- Setting bit 7 of a function code that has it set changes nothing (R106). -/
theorem excFc_of_high (fc : Byte) (h : 0x80 ≤ fc.toNat) : fc ||| 0x80#8 = fc := by
  revert fc
  decide

@[simp] theorem encodeFrame_length (addr fc : Byte) (p : List Byte) :
    (encodeFrame addr fc p).length = p.length + 4 := by
  simp [encodeFrame, crcGen]

/-! ## Every frame passes the router's check -/

/-- The instruction read from a frame stands for that frame (R107). -/
theorem frameOf_of_decodePdu (addr fc : Byte) (p : List Byte) (i : Instr) (h : decodePdu addr fc p = .ok i) :
    frameOf i = some ⟨addr, fc, p⟩ := by
  unfold decodePdu at h
  split_ifs at h <;> cases h <;> simp [frameOf, highFc_extractLsb', *]

/-- A frame instruction gives its frame to the engine of the role, behind the check of the function code (R193, R223). -/
theorem exec_of_frameOf (i : Instr) (fr : Frame) (h : frameOf i = some fr) :
    ∃ body, ∀ s, exec i s = acceptFrame fr.addr fr.fc fr.payload (routed fr.fc body) s := by
  cases i <;> cases h <;> exact ⟨_, fun _ => rfl⟩

/-- The end of a decodable frame, whatever its function code (R119, R193, R223). -/
theorem frameEnd_of_decoded (s : State) (fr : Frame)
    (h : decodeFrame s.rx.overrun s.rx.charErr s.rx.gap (rxFrame s) = .ok fr) :
    ∃ body, frameEnd s = acceptFrame fr.addr fr.fc fr.payload (routed fr.fc body) (setRxState .idle s) := by
  cases hp : decodePdu fr.addr fr.fc fr.payload with
  | error r => exact ⟨unsupportedPdu fr.fc, by simp [frameEnd, h, hp]⟩
  | ok i =>
    obtain ⟨body, hbody⟩ := exec_of_frameOf i fr (frameOf_of_decodePdu _ _ _ i hp)
    exact ⟨body, by simp [frameEnd, h, hp, hbody]⟩

/-- `supported(fc)` fails for every code outside the two lists (R221). -/
theorem supported_eq_false (p : Params) (fc : Byte) (hbase : fc ∉ [0x01#8, 0x03#8, 0x05#8, 0x06#8])
    (hext : p.extFc = false ∨ fc ∉ [0x02#8, 0x04#8, 0x0F#8, 0x10#8]) : supported p fc = false := by
  simp only [List.mem_cons, List.not_mem_nil, or_false] at hbase hext
  simp only [supported, hbase, decide_false, Bool.false_or, Bool.and_eq_false_iff, decide_eq_false_iff_not]
  exact hext

/-! ## The server's answer -/

/-- A listening server takes a frame to its own address as a request (R333). -/
theorem acceptFrame_of_serving (addr fc : Byte) (p : List Byte) (run : PduFn) (s : State) (h : Serving addr s) :
    acceptFrame addr fc p run s = addressed fc run { s with sstate := .dispatch } := by
  obtain ⟨hopen, hen, hrole, haddr⟩ := h
  simp [acceptFrame, State.listening, serverFrame, hopen, hen, hrole, haddr]

/-- Recording a request and sending its response is what `Answered` says, for a response that fits a frame (R333). -/
theorem answered_sendResponse (fc rfc exc : Byte) (rp : List Byte) (s : State)
    (hbuf : cellsWf s.tx.buf = true) (hlen : rp.length ≤ maxPayload) :
    Answered fc rfc rp exc s (sendResponse rfc rp (recordRequest fc exc false s)) := by
  have hlen9 : rp.length + 4 < 512 := by simp only [maxPayload] at hlen; omega
  have htx : TxHolds (encodeFrame s.cfg.unit rfc rp) s (sendResponse rfc rp (recordRequest fc exc false s)) := by
    refine ⟨?_, readCells_writeCells _ _ 0 hbuf, fun a ha => ?_⟩
    · simpa using Nat.mod_eq_of_lt hlen9
    · exact readCell_writeCells_outside _ _ 0 a (.inr ((Nat.zero_add _).trans_le ha))
  exact ⟨rfl, rfl, rfl, rfl, htx, rfl, rfl, rfl, rfl, rfl, rfl, rfl, rfl, rfl⟩

/-- Answering a request leaves the client's engine as it was (R333). -/
theorem client_of_answered (fc rfc exc : Byte) (rp : List Byte) (s t : State) (h : Answered fc rfc rp exc s t) :
    t.client = s.client := by
  obtain ⟨-, -, -, -, -, -, -, -, hclient, -⟩ := h
  exact hclient

/-- An addressed request that the router answers (R333). -/
theorem addressed_of_ok (fc : Byte) (run : PduFn) (s : State) (m : Memory) (r : Reply)
    (h : run s.inst s.mem = .ok (m, r)) :
    addressed fc run s = .next (sendResponse r.fc r.payload (recordRequest fc r.exc false { s with mem := m })) := by
  simp [addressed, h]

/-- An addressed request with an unsupported function code is answered `ILLEGAL_FUNCTION`, whatever the function would do (R222). -/
theorem addressed_of_not_supported (fc : Byte) (body : PduFn) (s : State) (hbuf : cellsWf s.tx.buf = true)
    (h : supported s.inst fc = false) :
    ∃ t, addressed fc (routed fc body) s = .next t ∧ AnsweredException fc 0x01#8 s t :=
  ⟨_, addressed_of_ok fc _ s _ _ (routed_of_not_supported fc body s.inst s.mem h),
    answered_sendResponse fc (excFc fc) 0x01#8 [0x01#8] s hbuf (by decide), rfl⟩

/-! ## The tick that ends a frame -/

/-- The silence counter advances and saturates (R190). -/
theorem silNext_toNat (sil : BitVec 32) : (silNext sil).toNat = min (sil.toNat + 1) 4294967295 := by
  unfold silNext Config.silSat
  split <;> bv_omega

/-- With no exchange of the client in flight `client_tick` does nothing (R300). -/
theorem clientTick_of_idle (s : State) (h : s.client.state = .idle) : clientTick s = s := by
  simp [clientTick, clientAfterChar, clientTrySend, h]

/-- The state in which the receiver finds an idle tick: the event taken, the silence counted (R190). -/
def State.ticked (rest : List Event) (s : State) : State := { s.taken rest with sil := silNext s.sil }

/-- With no response awaited the silence counter is the only one that moves (R190). -/
theorem idleCounters_taken (s : State) (rest : List Event) (h : s.client.state ≠ .await) :
    idleCounters (s.taken rest) = s.ticked rest := by
  simp [idleCounters, advanceTimer, State.ticked, State.taken, h]

/-- A frame ends on the idle tick that completes `cfg.t35` ticks of silence (R190). -/
theorem idleReceiver_of_frameEnd (s : State) (hen : s.rx.en = true) (hrx : s.rx.state = .ctrlWait)
    (hsil : s.cfg.t35.toNat ≤ s.sil.toNat) : idleReceiver s = frameEnd s := by
  simp [idleReceiver, hen, hrx, hsil]

/-- The step on the idle tick that ends a frame, no response being awaited (R190). -/
theorem step_frameEnd (s : State) (rest : List Event) (hrst : s.rstN = true) (hin : s.inputs = .idleTick :: rest)
    (hopen : s.isOpen = true) (htx : s.tx.active = false) (hclient : s.client.state ≠ .await) (hen : s.rx.en = true)
    (hrx : s.rx.state = .ctrlWait) (hsil : s.cfg.t35.toNat ≤ s.sil.toNat + 1) :
    step s = andThen (frameEnd (s.ticked rest)) fun t => .next (clientTick t) := by
  have ht35 : s.cfg.t35.toNat ≤ (silNext s.sil).toNat := by
    have := s.cfg.t35.isLt
    rw [silNext_toNat]
    omega
  calc step s
    _ = idleTick (s.taken rest) := by simp [step, nextEvent, hin, handle, hrst]
    _ = andThen (idleReceiver (s.ticked rest)) fun t => .next (clientTick t) := by
      simp [idleTick, State.lineFree, hopen, htx, idleCounters_taken s rest hclient]
    _ = andThen (frameEnd (s.ticked rest)) fun t => .next (clientTick t) := by
      rw [idleReceiver_of_frameEnd (s.ticked rest) hen hrx ht35]

end Sys2Proof.Machine

open Sys2Proof Sys2Proof.Machine

/-- Settles O49: the frame passes the router's check whichever way it is decoded, the check fails, and the answer leaves the client
idle, so that the rest of the tick does nothing. -/
theorem unimplementedFunctionIsAnswered : Obligations.UnimplementedFunctionIsAnswered := by
  intro s rest fc p hcanon hrst hin htx hserving hclient hrx hsil hdec hbase hext
  obtain ⟨-, -, -, -, hbuf⟩ := hcanon
  obtain ⟨hopen, hen, hrole, -⟩ := hserving
  obtain ⟨body, hend⟩ := frameEnd_of_decoded (s.ticked rest) ⟨s.cfg.unit, fc, p⟩ hdec
  have hserve : Serving s.cfg.unit (setRxState .idle (s.ticked rest)) := ⟨hopen, hen, hrole, rfl⟩
  obtain ⟨t, hrun, hans⟩ := addressed_of_not_supported fc body
    { setRxState .idle (s.ticked rest) with sstate := .dispatch } hbuf (supported_eq_false s.inst fc hbase hext)
  have hidle : t.client.state = .idle := by
    rw [client_of_answered _ _ _ _ _ _ hans.1]
    exact hclient
  have hstep : step s = .next t := by
    rw [step_frameEnd s rest hrst hin hopen htx (by simp [hclient]) hen hrx hsil, hend,
      acceptFrame_of_serving _ _ _ _ _ hserve, hrun, andThen_of_next, clientTick_of_idle t hidle]
  exact ⟨silNext s.sil, t, silNext_toNat s.sil, hstep, hans, excFc_of_high fc⟩
end

section
/-! PROOFS. The router's checks (43_pdu_router.md): a supported request that fails one is answered with the exception code of
that check and leaves the Data Store alone (R223 to R228, R403). -/

namespace Sys2Proof.Machine

/-! ## Supported function codes -/

/-- The four basic function codes are supported by every instance (R221). -/
theorem supported_of_base (p : Params) (fc : Byte) (h : fc ∈ [0x01#8, 0x03#8, 0x05#8, 0x06#8]) :
    supported p fc = true := by
  simp only [List.mem_cons, List.not_mem_nil, or_false] at h
  simp [supported, h]

/-- The four extension codes are supported by an instance with `EXT_FC` (R221). -/
theorem supported_of_ext (p : Params) (fc : Byte) (hext : p.extFc = true)
    (h : fc ∈ [0x02#8, 0x04#8, 0x0F#8, 0x10#8]) : supported p fc = true := by
  simp only [List.mem_cons, List.not_mem_nil, or_false] at h
  simp [supported, hext, h]

/-! ## The length checks of the functions (R224) -/

theorem readBits_malformed (fc : Byte) (t : BitTable) (d : List Byte) (p : Params) (m : Memory) :
    readBits fc t (.malformed d) p m = raiseException fc .illegalDataValue m := rfl

theorem readRegs_malformed (fc : Byte) (t : RegTable) (d : List Byte) (p : Params) (m : Memory) :
    readRegs fc t (.malformed d) p m = raiseException fc .illegalDataValue m := rfl

theorem writeSingleCoil_malformed (d : List Byte) (p : Params) (m : Memory) :
    writeSingleCoil (.malformed d) p m = raiseException 0x05#8 .illegalDataValue m := rfl

theorem writeSingleRegister_malformed (d : List Byte) (p : Params) (m : Memory) :
    writeSingleRegister (.malformed d) p m = raiseException 0x06#8 .illegalDataValue m := rfl

theorem writeMultipleCoils_short (d : List Byte) (p : Params) (m : Memory) :
    writeMultipleCoils (.short d) p m = raiseException 0x0F#8 .illegalDataValue m := rfl

theorem writeMultipleRegisters_short (d : List Byte) (p : Params) (m : Memory) :
    writeMultipleRegisters (.short d) p m = raiseException 0x10#8 .illegalDataValue m := rfl

/-- The byte count of packed bits, as R224 writes it. -/
theorem ceilDiv_eight (n : Nat) : ceilDiv n 8 = (n + 7) / 8 := rfl

/-- An illegal quantity, tested before the byte count, has the same answer, so the quantity is of no account (R224, R225). -/
theorem writeMultipleCoils_of_wrongCount (start qty : Word) (bc : Byte) (data : List Byte) (p : Params) (m : Memory)
    (h : data.length ≠ bc.toNat ∨ bc.toNat ≠ (qty.toNat + 7) / 8) :
    writeMultipleCoils (.multi start qty bc data) p m = raiseException 0x0F#8 .illegalDataValue m := by
  have hcount : bc.toNat ≠ ceilDiv qty.toNat 8 ∨ data.length ≠ bc.toNat := h.symm
  simp only [writeMultipleCoils, if_pos hcount, ite_self]

/-- As for coils, an illegal quantity has the same answer (R224, R225). -/
theorem writeMultipleRegisters_of_wrongCount (start qty : Word) (bc : Byte) (data : List Byte) (p : Params) (m : Memory)
    (h : data.length ≠ bc.toNat ∨ bc.toNat ≠ 2 * qty.toNat) :
    writeMultipleRegisters (.multi start qty bc data) p m = raiseException 0x10#8 .illegalDataValue m := by
  simp only [writeMultipleRegisters, if_pos h.symm, ite_self]

/-! ## The range checks of the functions (R226) -/

section
variable (p : Params) (m : Memory) (start qty : Word)

theorem readBits_of_outOfRange (fc : Byte) (t : BitTable) (hmin : 1 ≤ qty.toNat) (hmax : qty.toNat ≤ 2000)
    (hrange : bitSize p t < start.toNat + qty.toNat) :
    readBits fc t (.pair start qty) p m = raiseException fc .illegalDataAddress m := by
  have hqty : ¬(qty.toNat = 0 ∨ 2000 < qty.toNat) := by omega
  simp [readBits, hqty, hrange]

theorem readRegs_of_outOfRange (fc : Byte) (t : RegTable) (hmin : 1 ≤ qty.toNat) (hmax : qty.toNat ≤ 125)
    (hrange : regSize p t < start.toNat + qty.toNat) :
    readRegs fc t (.pair start qty) p m = raiseException fc .illegalDataAddress m := by
  have hqty : ¬(qty.toNat = 0 ∨ 125 < qty.toNat) := by omega
  simp [readRegs, hqty, hrange]

theorem writeSingleCoil_of_outOfRange (hvalue : qty = coilOn ∨ qty = coilOff) (hrange : p.nCoils ≤ start.toNat) :
    writeSingleCoil (.pair start qty) p m = raiseException 0x05#8 .illegalDataAddress m := by
  have hlegal : ¬(qty ≠ coilOn ∧ qty ≠ coilOff) := by tauto
  simp only [writeSingleCoil, if_neg hlegal, if_pos hrange]

theorem writeSingleRegister_of_outOfRange (hrange : p.nHr ≤ start.toNat) :
    writeSingleRegister (.pair start qty) p m = raiseException 0x06#8 .illegalDataAddress m := by
  simp only [writeSingleRegister, if_pos hrange]

theorem writeMultipleCoils_of_outOfRange (bc : Byte) (data : List Byte) (hmin : 1 ≤ qty.toNat)
    (hmax : qty.toNat ≤ 1968) (hbc : bc.toNat = (qty.toNat + 7) / 8) (hdata : data.length = bc.toNat)
    (hrange : p.nCoils < start.toNat + qty.toNat) :
    writeMultipleCoils (.multi start qty bc data) p m = raiseException 0x0F#8 .illegalDataAddress m := by
  have hqty : ¬(qty.toNat = 0 ∨ 1968 < qty.toNat) := by omega
  have hcount : ¬(bc.toNat ≠ ceilDiv qty.toNat 8 ∨ data.length ≠ bc.toNat) := by rw [ceilDiv_eight]; omega
  simp only [writeMultipleCoils, if_neg hqty, if_neg hcount, if_pos hrange]

theorem writeMultipleRegisters_of_outOfRange (bc : Byte) (data : List Byte) (hmin : 1 ≤ qty.toNat)
    (hmax : qty.toNat ≤ 123) (hbc : bc.toNat = 2 * qty.toNat) (hdata : data.length = bc.toNat)
    (hrange : p.nHr < start.toNat + qty.toNat) :
    writeMultipleRegisters (.multi start qty bc data) p m = raiseException 0x10#8 .illegalDataAddress m := by
  have hqty : ¬(qty.toNat = 0 ∨ 123 < qty.toNat) := by omega
  have hcount : ¬(bc.toNat ≠ 2 * qty.toNat ∨ data.length ≠ bc.toNat) := by omega
  simp only [writeMultipleRegisters, if_neg hqty, if_neg hcount, if_pos hrange]

end

/-! ## A failed check at the server -/

/-- An addressed request of a supported function that fails a check is answered with the code of that check (R227, R228, R403). -/
theorem addressed_of_raised (fc : Byte) (body : PduFn) (code : ExcCode) (s : State) (hbuf : cellsWf s.tx.buf = true)
    (hsup : supported s.inst fc = true) (hbody : body s.inst s.mem = raiseException fc code s.mem) :
    ∃ t, addressed fc (routed fc body) s = .next t ∧ AnsweredException fc (excByte code) s t :=
  ⟨_, addressed_of_ok fc _ s _ _ ((routed_of_supported fc body s.inst s.mem hsup).trans hbody),
    answered_sendResponse fc (excFc fc) (excByte code) [excByte code] s hbuf (by decide : 1 ≤ maxPayload), rfl⟩

/-- A frame instruction of a supported function raises the exception of the check that its function fails. -/
theorem raises_of_check (code : ExcCode) {i : Instr} {addr fc : Byte} {pl : List Byte} {body : PduFn} {s : State}
    (hcanon : Canonical s) (hserving : Serving addr s) (hsup : supported s.inst fc = true)
    (hexec : exec i s = acceptFrame addr fc pl (routed fc body) s)
    (hbody : body s.inst s.mem = raiseException fc code s.mem) : Raises i fc (excByte code) s := by
  obtain ⟨-, -, -, -, hbuf⟩ := hcanon
  unfold Raises
  rw [hexec, acceptFrame_of_serving addr fc pl _ s hserving]
  exact addressed_of_raised fc body code { s with sstate := .dispatch } hbuf hsup hbody

/-! ## The eight instructions whose function fails a check -/

section
variable (code : ExcCode) {addr : Byte} {s : State} (hcanon : Canonical s) (hserving : Serving addr s)
include hcanon hserving

theorem readCoils_raises {q : PairReq}
    (h : readBits 0x01#8 .coils q s.inst s.mem = raiseException 0x01#8 code s.mem) :
    Raises (.readCoils addr q) 0x01#8 (excByte code) s :=
  raises_of_check code hcanon hserving (supported_of_base _ _ (by decide)) rfl h

theorem readHoldingRegisters_raises {q : PairReq}
    (h : readRegs 0x03#8 .hr q s.inst s.mem = raiseException 0x03#8 code s.mem) :
    Raises (.readHoldingRegisters addr q) 0x03#8 (excByte code) s :=
  raises_of_check code hcanon hserving (supported_of_base _ _ (by decide)) rfl h

theorem writeSingleCoil_raises {q : PairReq}
    (h : writeSingleCoil q s.inst s.mem = raiseException 0x05#8 code s.mem) :
    Raises (.writeSingleCoil addr q) 0x05#8 (excByte code) s :=
  raises_of_check code hcanon hserving (supported_of_base _ _ (by decide)) rfl h

theorem writeSingleRegister_raises {q : PairReq}
    (h : writeSingleRegister q s.inst s.mem = raiseException 0x06#8 code s.mem) :
    Raises (.writeSingleRegister addr q) 0x06#8 (excByte code) s :=
  raises_of_check code hcanon hserving (supported_of_base _ _ (by decide)) rfl h

theorem readDiscreteInputs_raises (hext : s.inst.extFc = true) {q : PairReq}
    (h : readBits 0x02#8 .di q s.inst s.mem = raiseException 0x02#8 code s.mem) :
    Raises (.readDiscreteInputs addr q) 0x02#8 (excByte code) s :=
  raises_of_check code hcanon hserving (supported_of_ext _ _ hext (by decide)) rfl h

theorem readInputRegisters_raises (hext : s.inst.extFc = true) {q : PairReq}
    (h : readRegs 0x04#8 .ir q s.inst s.mem = raiseException 0x04#8 code s.mem) :
    Raises (.readInputRegisters addr q) 0x04#8 (excByte code) s :=
  raises_of_check code hcanon hserving (supported_of_ext _ _ hext (by decide)) rfl h

theorem writeMultipleCoils_raises (hext : s.inst.extFc = true) {q : MultiReq}
    (h : writeMultipleCoils q s.inst s.mem = raiseException 0x0F#8 code s.mem) :
    Raises (.writeMultipleCoils addr q) 0x0F#8 (excByte code) s :=
  raises_of_check code hcanon hserving (supported_of_ext _ _ hext (by decide)) rfl h

theorem writeMultipleRegisters_raises (hext : s.inst.extFc = true) {q : MultiReq}
    (h : writeMultipleRegisters q s.inst s.mem = raiseException 0x10#8 code s.mem) :
    Raises (.writeMultipleRegisters addr q) 0x10#8 (excByte code) s :=
  raises_of_check code hcanon hserving (supported_of_ext _ _ hext (by decide)) rfl h

end

end Sys2Proof.Machine

open Sys2Proof Sys2Proof.Machine

/-- Settles O15: each function's length check fails, and a failed check of a supported function is answered with its code. -/
theorem wrongLengthIsIllegalDataValue : Obligations.WrongLengthIsIllegalDataValue := by
  intro s addr p start qty bc data hcanon hserving
  refine ⟨fun _ => ⟨?_, ?_, ?_, ?_, fun hext => ⟨?_, ?_⟩⟩, fun _ hext => ⟨?_, ?_⟩,
    fun hext => ⟨fun hcount => ?_, fun hcount => ?_⟩⟩
  · exact readCoils_raises .illegalDataValue hcanon hserving (readBits_malformed ..)
  · exact readHoldingRegisters_raises .illegalDataValue hcanon hserving (readRegs_malformed ..)
  · exact writeSingleCoil_raises .illegalDataValue hcanon hserving (writeSingleCoil_malformed ..)
  · exact writeSingleRegister_raises .illegalDataValue hcanon hserving (writeSingleRegister_malformed ..)
  · exact readDiscreteInputs_raises .illegalDataValue hcanon hserving hext (readBits_malformed ..)
  · exact readInputRegisters_raises .illegalDataValue hcanon hserving hext (readRegs_malformed ..)
  · exact writeMultipleCoils_raises .illegalDataValue hcanon hserving hext (writeMultipleCoils_short ..)
  · exact writeMultipleRegisters_raises .illegalDataValue hcanon hserving hext (writeMultipleRegisters_short ..)
  · exact writeMultipleCoils_raises .illegalDataValue hcanon hserving hext
      (writeMultipleCoils_of_wrongCount _ _ _ _ _ _ hcount)
  · exact writeMultipleRegisters_raises .illegalDataValue hcanon hserving hext
      (writeMultipleRegisters_of_wrongCount _ _ _ _ _ _ hcount)

/-- Settles O17: the checks before the range pass, and the range check, a comparison in the naturals, fails. -/
theorem outOfRangeIsIllegalDataAddress : Obligations.OutOfRangeIsIllegalDataAddress := by
  intro s addr start qty bc data hcanon hserving
  refine ⟨fun hmin hmax hrange => ?_, fun hmin hmax hrange => ?_, fun hvalue hrange => ?_, fun hrange => ?_,
    fun hext => ⟨fun hmin hmax hrange => ?_, fun hmin hmax hrange => ?_,
      fun hmin hmax hbc hdata hrange => ?_, fun hmin hmax hbc hdata hrange => ?_⟩⟩
  · exact readCoils_raises .illegalDataAddress hcanon hserving
      (readBits_of_outOfRange _ _ _ _ 0x01#8 .coils hmin hmax hrange)
  · exact readHoldingRegisters_raises .illegalDataAddress hcanon hserving
      (readRegs_of_outOfRange _ _ _ _ 0x03#8 .hr hmin hmax hrange)
  · exact writeSingleCoil_raises .illegalDataAddress hcanon hserving
      (writeSingleCoil_of_outOfRange _ _ _ _ hvalue hrange)
  · exact writeSingleRegister_raises .illegalDataAddress hcanon hserving
      (writeSingleRegister_of_outOfRange _ _ _ _ hrange)
  · exact readDiscreteInputs_raises .illegalDataAddress hcanon hserving hext
      (readBits_of_outOfRange _ _ _ _ 0x02#8 .di hmin hmax hrange)
  · exact readInputRegisters_raises .illegalDataAddress hcanon hserving hext
      (readRegs_of_outOfRange _ _ _ _ 0x04#8 .ir hmin hmax hrange)
  · exact writeMultipleCoils_raises .illegalDataAddress hcanon hserving hext
      (writeMultipleCoils_of_outOfRange _ _ _ _ bc data hmin hmax hbc hdata hrange)
  · exact writeMultipleRegisters_raises .illegalDataAddress hcanon hserving hext
      (writeMultipleRegisters_of_outOfRange _ _ _ _ bc data hmin hmax hbc hdata hrange)

end

section
/-! PROOFS. The end of a transmission (46_client_fsm.md R299, 47_server_fsm.md R336): what the last character does to the transmitter,
and what it does to the engine of the role. -/

namespace Sys2Proof.Machine

/-- The state with the last character sent, as the engine of the role finds it (R186). -/
def sentLast (s : State) : State :=
  { sentChar s with tx := { s.tx with idx := s.tx.len, active := false } }

/-! ## The transmitter -/

/-- A listed `TxChar` is handled on the state with that event taken off the list (R10, R440). -/
theorem step_of_txChar (s : State) (rest : List Event) (hrst : s.rstN = true)
    (hin : s.inputs = .txChar :: rest) : step s = txChar (s.taken rest) := by
  simp [step, nextEvent, hin, handle, hrst]

/-- The last character hands over to the engine of the role (R186). -/
theorem txChar_of_last (s : State) (hopen : s.isOpen = true) (htx : s.tx.active = true)
    (hlast : s.tx.idx + 1#9 = s.tx.len) : txChar s = .next (txDone (sentLast s)) := by
  have htrans : s.transmitting = true := by simp [State.transmitting, hopen, htx]
  simp only [txChar, if_pos htrans, if_pos hlast]
  rw [hlast]
  rfl

/-! ## The engine of the role -/

theorem txDone_of_server (s : State) (hrole : s.cfg.role = .server) : txDone s = serverTxDone s := by
  simp only [txDone, hrole]

theorem txDone_of_client (s : State) (hrole : s.cfg.role = .client) : txDone s = clientTxDone s := by
  simp only [txDone, hrole]

/-- An addressed request opens the response window (R299). -/
theorem clientTxDone_of_addressed (s : State) (hunit : s.client.rq.unit ≠ 0#8) :
    clientTxDone s = rxArm .idle { s with client := { s.client with state := .await, respElapsed := 0#32 } } :=
  if_neg hunit

/-- A broadcast is complete with its last character: nobody answers it (R299). -/
theorem clientTxDone_of_broadcast (s : State) (hunit : s.client.rq.unit = 0#8) :
    clientTxDone s = setCState .idle (finish ⟨.ok, none, 0#8, resends s.client⟩ s) :=
  if_pos hunit

end Sys2Proof.Machine

open Sys2Proof Sys2Proof.Machine

/-- Settles O52: every listed last `TxChar` is the end of the transmission by the engine of the role on the state with the character
sent; the three clauses are the three ways that engine takes it. -/
theorem lastCharacterEndsTransmission : Obligations.LastCharacterEndsTransmission := by
  intro s rest hrst hin hopen htx hlast
  have hstep : step s = .next (txDone (sentLast (s.taken rest))) := by
    rw [step_of_txChar s rest hrst hin, txChar_of_last (s.taken rest) hopen htx hlast]
  refine ⟨sentLast (s.taken rest), rfl, fun hserver => ?_, fun hclient haddressed => ?_, fun hclient hbroadcast => ?_⟩
  · rw [hstep, txDone_of_server (sentLast (s.taken rest)) hserver]
    rfl
  · rw [hstep, txDone_of_client (sentLast (s.taken rest)) hclient, clientTxDone_of_addressed (sentLast (s.taken rest)) haddressed]
    rfl
  · rw [hstep, txDone_of_client (sentLast (s.taken rest)) hclient, clientTxDone_of_broadcast (sentLast (s.taken rest)) hbroadcast]
    rfl

end

section
/-! PROOFS. The event flags (48_host_interface.md R374): every operation of the block but the acknowledge and `Reset` only sets flags.
Each operation is followed once, from the state updates up to the step. -/

namespace Sys2Proof.Machine

/-- Every flag set in `s` is set in `t` (R374). -/
def KeepsFlags (s t : State) : Prop := ∀ i, s.regs.evt.getLsbD i = true → t.regs.evt.getLsbD i = true

variable {s t u : State}

theorem KeepsFlags.refl (s : State) : KeepsFlags s s := fun _ hset => hset

theorem KeepsFlags.trans (hst : KeepsFlags s t) (htu : KeepsFlags t u) : KeepsFlags s u :=
  fun i hset => htu i (hst i hset)

/-- What keeps the flags of `s` keeps those of every state with the same flags. -/
theorem KeepsFlags.of_sameFlags (hsu : KeepsFlags s u) (h : s.regs.evt = t.regs.evt) : KeepsFlags t u :=
  fun i hset => hsu i (by rw [h, hset])

theorem KeepsFlags.of_eq (h : t.regs.evt = s.regs.evt) : KeepsFlags s t := fun i hset => by rw [h, hset]

theorem KeepsFlags.of_or (f : BitVec 5) (h : t.regs.evt = s.regs.evt ||| f) : KeepsFlags s t := fun i hset => by
  rw [h, BitVec.getLsbD_or, hset, Bool.true_or]

theorem keepsFlags_setEvt (f : BitVec 5) (s : State) : KeepsFlags s (State.setEvt f s) := .of_or f rfl

theorem keepsFlags_finish (r : Result) (s : State) : KeepsFlags s (finish r s) := .of_or evtDone rfl

theorem keepsFlags_transportError (c : TCause) (s : State) : KeepsFlags s (transportError c s) := .of_or evtTerr rfl

/-! ## The client's engine -/

theorem keepsFlags_clientTrySend (s : State) : KeepsFlags s (clientTrySend s) :=
  .of_eq (congrArg Regs.evt (clientTrySend_regs s))

theorem keepsFlags_advanceTimer (n : BitVec 32) (s : State) : KeepsFlags s (advanceTimer n s) :=
  .of_eq (congrArg Regs.evt (advanceTimer_regs s n))

theorem keepsFlags_retryOrFail (code : ResultCode) (k : Option FrameError) (s : State) :
    KeepsFlags s (retryOrFail code k s) := by
  unfold retryOrFail
  split
  · exact (keepsFlags_clientTrySend _).of_sameFlags rfl
  · exact keepsFlags_finish _ s

theorem keepsFlags_timedOut (s : State) : KeepsFlags s (timedOut s) :=
  (keepsFlags_retryOrFail .timeout none (rxOff (setCState .timedOut s))).of_sameFlags rfl

theorem keepsFlags_crcError (k : FrameError) (s : State) : KeepsFlags s (crcError k s) :=
  ((keepsFlags_setEvt evtRxdrop (rxOff (setCState .crcErr s))).trans
    (keepsFlags_retryOrFail .corruptedResponse (some k) _)).of_sameFlags rfl

theorem keepsFlags_matched (fr : Frame) (s : State) : KeepsFlags s (matched fr s) := .of_or evtDone rfl

theorem keepsFlags_clientFrame (fr : Frame) (s : State) : KeepsFlags s (clientFrame fr s) := by
  unfold clientFrame
  split
  · exact .refl s
  · exact keepsFlags_crcError _ s
  · exact keepsFlags_matched fr s
  · exact keepsFlags_matched fr s

theorem keepsFlags_clientAfterChar (s : State) : KeepsFlags s (clientAfterChar s) := by
  unfold clientAfterChar
  split
  · exact keepsFlags_timedOut s
  · exact .refl s

theorem keepsFlags_clientTick (s : State) : KeepsFlags s (clientTick s) :=
  (keepsFlags_clientAfterChar s).trans (keepsFlags_clientTrySend _)

theorem keepsFlags_clientTxDone (s : State) : KeepsFlags s (clientTxDone s) := by
  unfold clientTxDone
  split
  · exact keepsFlags_finish _ s
  · exact .refl s

/-! ## Frames -/

/-- An addressed request adds `EVT.SRVREQ` at most (R333). -/
theorem addressed_keepsFlags (fc : Byte) (run : PduFn) (h : addressed fc run s = .next t) : KeepsFlags s t := by
  obtain ⟨m, r, -, rfl⟩ := addressed_next fc run s t h
  exact .of_or evtSrvreq rfl

/-- A broadcast adds `EVT.SRVREQ` at most (R335). -/
theorem broadcast_keepsFlags (fc : Byte) (run : PduFn) (h : broadcast fc run s = .next t) : KeepsFlags s t := by
  obtain ⟨-, -, m, r, -, rfl⟩ | ⟨-, rfl⟩ := broadcast_next fc run s t h
  · exact .of_or evtSrvreq rfl
  · exact .refl s

theorem serverFrame_keepsFlags (addr fc : Byte) (run : PduFn) (h : serverFrame addr fc run s = .next t) :
    KeepsFlags s t := by
  obtain ⟨-, hrun⟩ | ⟨-, -, -, hrun⟩ | ⟨-, -, rfl⟩ := serverFrame_next addr fc run s t h
  · exact addressed_keepsFlags fc run hrun
  · exact broadcast_keepsFlags fc run hrun
  · exact .refl s

theorem acceptFrame_keepsFlags (addr fc : Byte) (p : List Byte) (run : PduFn)
    (h : acceptFrame addr fc p run s = .next t) : KeepsFlags s t := by
  obtain ⟨-, rfl⟩ | ⟨-, -, hrun⟩ | ⟨-, -, rfl⟩ := acceptFrame_next addr fc p run s t h
  · exact .refl t
  · exact serverFrame_keepsFlags addr fc run hrun
  · exact keepsFlags_clientFrame _ s

/-- The end of a frame, decodable or not (R193). -/
theorem frameEnd_keepsFlags (h : frameEnd s = .next t) : KeepsFlags s t := by
  cases hdec : decodeFrame s.rx.overrun s.rx.charErr s.rx.gap (rxFrame s) with
  | ok fr =>
    obtain ⟨body, hend⟩ := frameEnd_of_decoded s fr hdec
    have haccept := acceptFrame_keepsFlags fr.addr fr.fc fr.payload _ (hend.symm.trans h)
    exact haccept.of_sameFlags rfl
  | error k =>
    obtain ⟨k', -, ⟨-, rfl⟩ | ⟨-, rfl⟩⟩ | ⟨fr, i, hok, -⟩ | ⟨fr, r, hok, -⟩ := frameEnd_next s t h
    · exact .of_or evtRxdrop rfl
    · exact (keepsFlags_crcError k' _).of_sameFlags rfl
    · cases hdec.symm.trans hok
    · cases hdec.symm.trans hok

/-! ## The host's commands -/

/-- With no exchange in flight `CLOSE` ends none (R365). -/
theorem abortExchange_of_idle (h : s.client.state = .idle) : abortExchange s = s := if_pos h

/-- An exchange in flight ends with `TRANSPORT_ERROR`, and `EVT.DONE` and `EVT.TERR` are set (R365). -/
theorem abortExchange_of_inFlight (h : s.client.state ≠ .idle) : abortExchange s =
    { s with regs := { s.regs with
      result := ⟨.transportError, none, 0#8, s.client.retryBound - s.client.retryLeft⟩
      tcause := .closedInFlight
      evt := s.regs.evt ||| 0x09#5 } } := by
  have hflags : (s.regs.evt ||| evtDone) ||| evtTerr = s.regs.evt ||| 0x09#5 := BitVec.or_assoc _ _ _
  rw [← hflags]
  exact if_neg h

theorem keepsFlags_abortExchange (s : State) : KeepsFlags s (abortExchange s) := by
  by_cases hidle : s.client.state = .idle
  · rw [abortExchange_of_idle hidle]
    exact .refl s
  · rw [abortExchange_of_inFlight hidle]
    exact .of_or 0x09#5 rfl

theorem keepsFlags_opened (s : State) : KeepsFlags s (opened s) := by
  unfold opened sessionRx
  split <;> exact .refl s

theorem execOpen_keepsFlags (h : execOpen s = .next t) : KeepsFlags s t := by
  unfold execOpen at h
  split_ifs at h <;> cases h
  · exact keepsFlags_setEvt _ s
  · exact keepsFlags_opened s
  · exact keepsFlags_transportError _ s

theorem execClose_keepsFlags (h : execClose s = .next t) : KeepsFlags s t := by
  unfold execClose at h
  split_ifs at h <;> cases h
  · exact keepsFlags_abortExchange (lineOff s)
  · exact .refl s

theorem keepsFlags_startExchange (q : Request) (s : State) : KeepsFlags s (startExchange q s) :=
  (keepsFlags_clientTrySend _).of_sameFlags rfl

theorem execGo_keepsFlags (h : execGo s = .next t) : KeepsFlags s t := by
  unfold execGo at h
  split_ifs at h <;> cases h
  · exact (keepsFlags_finish _ s).trans (keepsFlags_transportError _ _)
  · exact keepsFlags_setEvt _ s
  · exact keepsFlags_startExchange _ s
  · exact (keepsFlags_finish _ s).trans (keepsFlags_setEvt _ _)

/-- `DSGO` reports through `ds_err`, never through a flag (R370). -/
theorem execDsgo_keepsFlags (h : execDsgo s = .next t) : KeepsFlags s t := by
  unfold execDsgo at h
  repeat' split at h
  all_goals cases h
  all_goals exact .refl s

/-- Every instruction but the acknowledge keeps every flag (R374). -/
theorem exec_keepsFlags (i : Instr) (hi : ∀ m, i ≠ .evtClear m) (h : exec i s = .next t) : KeepsFlags s t := by
  cases hf : frameOf i with
  | some fr =>
    obtain ⟨body, hbody⟩ := exec_of_frameOf i fr hf
    exact acceptFrame_keepsFlags fr.addr fr.fc fr.payload _ ((hbody s).symm.trans h)
  | none =>
    cases i with
    | openCmd => exact execOpen_keepsFlags h
    | closeCmd => exact execClose_keepsFlags h
    | goCmd => exact execGo_keepsFlags h
    | dsgoCmd => exact execDsgo_keepsFlags h
    | crcInit => cases h; exact .refl s
    | crcDataWrite b => cases h; exact .refl s
    | evtClear m => exact absurd rfl (hi m)
    | _ => cases hf

/-! ## Host writes -/

theorem execAll_keepsFlags (l : List Instr) (hl : ∀ i ∈ l, ∀ m, i ≠ .evtClear m) (h : execAll l s = .next t) :
    KeepsFlags s t := by
  induction l generalizing s with
  | nil => cases h; exact .refl t
  | cons i r ih =>
    obtain ⟨u, hexec, hrest⟩ := (execAll_cons_next i r s t).1 h
    have hfirst : KeepsFlags s u := exec_keepsFlags i (hl i (by simp)) hexec
    exact hfirst.trans (ih (fun j hj => hl j (by simp [hj])) hrest)

/-- No command of `CTRL` is the acknowledge (R33). -/
theorem ne_evtClear_of_mem_decodeCtrl (v : Reg) : ∀ i ∈ decodeCtrl v, ∀ m, i ≠ .evtClear m := by
  rintro _ hi m rfl
  simp [decodeCtrl] at hi

/-- Only a write of `EVT` decodes to the acknowledge (R31, R361). -/
theorem ne_evtClear_of_decodeCsr (n : Nat) (v : Reg) (l : List Instr) (hn : n ≠ 0x02) (h : decodeCsr n v = .ok l) :
    ∀ i ∈ l, ∀ m, i ≠ .evtClear m := by
  unfold decodeCsr at h
  split_ifs at h <;> cases h
  · exact ne_evtClear_of_mem_decodeCtrl v
  · simp

/-- `EVT` is not among the plain registers (R31, R361). -/
theorem writeReg_evt (n : Nat) (v : Reg) (r : Regs) : (writeReg n v r).evt = r.evt := by
  unfold writeReg
  repeat' split
  all_goals rfl

theorem csrWrite_keepsFlags (n : Nat) (v : Reg) (hn : n ≠ 0x02) (h : csrWrite n v s = .next t) : KeepsFlags s t := by
  obtain ⟨l, hl, hrun⟩ | ⟨r, -, rfl⟩ := csrWrite_next n v s t h
  · exact execAll_keepsFlags l (ne_evtClear_of_decodeCsr n v l hn hl) hrun
  · exact .of_eq (writeReg_evt n v s.regs)

/-! ## Line events -/

theorem idleReceiver_keepsFlags (h : idleReceiver s = .next t) : KeepsFlags s t := by
  obtain rfl | ⟨-, -, -, rfl⟩ | ⟨-, -, -, rfl⟩ | ⟨-, -, -, hend⟩ := idleReceiver_next s t h
  · exact .refl t
  · exact .refl s
  · exact .refl s
  · exact frameEnd_keepsFlags hend

theorem idleTick_keepsFlags (h : idleTick s = .next t) : KeepsFlags s t := by
  obtain ⟨-, rfl⟩ | ⟨-, u, hrx, rfl⟩ := idleTick_next s t h
  · exact .refl t
  · have hcount : KeepsFlags s (idleCounters s) :=
      (keepsFlags_advanceTimer 1#32 { s with sil := silNext s.sil }).of_sameFlags rfl
    exact hcount.trans ((idleReceiver_keepsFlags hrx).trans (keepsFlags_clientTick u))

theorem rxChar_keepsFlags (b : Byte) (err : Bool) (h : rxChar b err s = .next t) : KeepsFlags s t := by
  obtain ⟨-, rfl⟩ | ⟨-, rfl⟩ := rxChar_next b err s t h
  · exact .refl t
  · exact (keepsFlags_advanceTimer _ s).trans ((keepsFlags_clientAfterChar _).of_sameFlags rfl)

theorem keepsFlags_txDone (s : State) : KeepsFlags s (txDone s) := by
  cases hrole : s.cfg.role with
  | server => rw [txDone_of_server s hrole]; exact .refl s
  | client => rw [txDone_of_client s hrole]; exact keepsFlags_clientTxDone s

theorem txChar_keepsFlags (h : txChar s = .next t) : KeepsFlags s t := by
  obtain ⟨-, rfl⟩ | ⟨-, -, rfl⟩ | ⟨-, -, rfl⟩ := txChar_next s t h
  · exact .refl t
  · exact (keepsFlags_txDone _).of_sameFlags rfl
  · exact .refl s

/-! ## Steps -/

/-- While `rst_n` is low an event that it masks keeps the flags with everything else (R440). -/
theorem keepsFlags_of_masked {b : Bool} {o : Host.Outcome State Fault Refusal} (ho : o = .next t → KeepsFlags s t)
    (h : (if b then o else .next s) = .next t) : KeepsFlags s t := by
  cases b with
  | true => exact ho h
  | false => cases h; exact .refl s

/-- Every event but a write of `EVT` and `Reset` keeps every flag (R374). -/
theorem handle_keepsFlags (e : Event) (hwrite : ∀ v, e ≠ .csrWrite 0x02 v) (hreset : e ≠ .reset)
    (h : handle e s = .next t) : KeepsFlags s t := by
  cases e with
  | reset => exact absurd rfl hreset
  | rstRise => cases h; exact .refl s
  | csrWrite n v =>
    have hn : n ≠ 0x02 := fun hn => hwrite v (by rw [hn])
    exact keepsFlags_of_masked (csrWrite_keepsFlags n v hn) h
  | csrRead n => exact keepsFlags_of_masked (fun hread => by cases hread; exact .refl s) h
  | idleTick => exact keepsFlags_of_masked idleTick_keepsFlags h
  | rxChar b err => exact keepsFlags_of_masked (rxChar_keepsFlags b err) h
  | rxLine samples => exact keepsFlags_of_masked (rxChar_keepsFlags _ _) h
  | txChar => exact keepsFlags_of_masked txChar_keepsFlags h

/-- Every step but a write of `EVT` and `Reset` keeps every flag (R374). -/
theorem step_keepsFlags (hwrite : ∀ v rest, s.inputs ≠ .csrWrite 0x02 v :: rest)
    (hreset : ∀ rest, s.inputs ≠ .reset :: rest) (h : step s = .next t) : KeepsFlags s t := by
  obtain ⟨e, rest, hin, hhandle⟩ | ⟨-, hhandle⟩ := step_next s t h
  · have hne : (∀ v, e ≠ .csrWrite 0x02 v) ∧ e ≠ .reset :=
      ⟨fun v he => hwrite v rest (he ▸ hin), fun he => hreset rest (he ▸ hin)⟩
    exact handle_keepsFlags (s := s.taken rest) e hne.1 hne.2 hhandle
  · exact handle_keepsFlags (s := s.taken []) .txChar (by simp) (by simp) hhandle

end Sys2Proof.Machine

open Sys2Proof Sys2Proof.Machine

/-- Settles O37: the acknowledge is a mask on `EVT`, and following every other event through the operations it runs meets only
operations that set flags. -/
theorem evtClearClearsExactly : Obligations.EvtClearClearsExactly := by
  refine ⟨fun s m => ⟨s.regs.evt &&& ~~~m, rfl, fun i hi => ?_⟩, fun s t hstep hwrite hreset i _ hset => ?_⟩
  · rw [BitVec.getLsbD_and, BitVec.getLsbD_not, decide_eq_true hi, Bool.true_and]
  · exact step_keepsFlags hwrite hreset hstep i hset

/-- Settles O31: the line stops in every open session, and the two cases of the client's state are the two ways `CLOSE` ends an
exchange. -/
theorem closeEndsTheSession : Obligations.CloseEndsTheSession := by
  intro s
  refine ⟨fun hopen => ?_, fun hclosed => by simp [exec, execClose, hclosed]⟩
  have hclose : exec .closeCmd s = .next { setCState .idle (abortExchange (lineOff s)) with sstate := .listen } :=
    if_pos hopen
  by_cases hidle : s.client.state = .idle
  · rw [hclose, abortExchange_of_idle (s := lineOff s) hidle, if_pos hidle]
    rfl
  · rw [hclose, abortExchange_of_inFlight (s := lineOff s) hidle, if_neg hidle]
    rfl

end

section
/-! PROOFS. The CRC (40_crc.md): the register's update is injective in the register and in the byte, and eight shifts of a word whose
low byte is 0 only move it. From these follow the residue, the check, the detection of changed bytes and the round trip of the codec. -/

namespace Sys2Proof.Machine

/-! ## The shifts -/

@[simp] theorem crcShifts_zero (n : Nat) : crcShifts n 0#16 = 0#16 := by
  induction n with
  | zero => rfl
  | succ n ih => exact ih

/-- No XOR is made while the bits shifted out are 0 (R132). -/
theorem crcShifts_of_low_zero (n : Nat) (c : Word) (h : ∀ i, i < n → c.getLsbD i = false) : crcShifts n c = c >>> n := by
  induction n generalizing c with
  | zero => rfl
  | succ n ih =>
    have hshift : crcShift c = c >>> 1 := by rw [crcShift, h 0 (by omega)]; rfl
    have hlow : ∀ i, i < n → (c >>> 1).getLsbD i = false := fun i hi => by
      rw [BitVec.getLsbD_ushiftRight]
      exact h (1 + i) (by omega)
    rw [crcShifts, hshift, ih _ hlow, ← BitVec.shiftRight_add, Nat.add_comm]

/-- The polynomial has bit 15 set, which the shift leaves 0: bit 15 afterwards tells whether the XOR was made (R132). -/
theorem crcShift_getLsbD_15 (c : Word) : (crcShift c).getLsbD 15 = c.getLsbD 0 := by
  unfold crcShift
  split <;> simp_all

theorem crcShift_injective : Function.Injective crcShift := by
  intro c d h
  have hlow : c.getLsbD 0 = d.getLsbD 0 := by rw [← crcShift_getLsbD_15, h, crcShift_getLsbD_15]
  have hrest : c >>> 1 = d >>> 1 := by
    unfold crcShift at h
    rw [hlow] at h
    split at h
    · exact (BitVec.xor_left_inj _).1 h
    · exact h
  refine BitVec.eq_of_getLsbD_eq fun i hi => ?_
  cases i with
  | zero => exact hlow
  | succ i =>
    have hbit : (c >>> 1).getLsbD i = (d >>> 1).getLsbD i := by rw [hrest]
    rwa [BitVec.getLsbD_ushiftRight, BitVec.getLsbD_ushiftRight, Nat.add_comm] at hbit

theorem crcShifts_injective (n : Nat) : Function.Injective (crcShifts n) := by
  induction n with
  | zero => exact fun c d h => h
  | succ n ih => exact fun c d h => crcShift_injective (ih h)

/-! ## The update -/

theorem crcUpdate_left_injective (b : Byte) : Function.Injective fun c => crcUpdate c b := fun _ _ h =>
  (BitVec.xor_left_inj _).1 (crcShifts_injective 8 h)

theorem crcUpdate_right_injective (c : Word) : Function.Injective (crcUpdate c) := fun a b h => by
  have hwide : a.setWidth 16 = b.setWidth 16 := (BitVec.xor_right_inj _).1 (crcShifts_injective 8 h)
  have := congrArg BitVec.toNat hwide
  bv_omega

theorem crcRun_left_injective (f : List Byte) : Function.Injective fun c => crcRun c f := by
  induction f with
  | nil => exact fun c d h => h
  | cons b f ih => exact fun c d h => crcUpdate_left_injective b (ih h)

theorem crcRun_append (c : Word) (f g : List Byte) : crcRun c (f ++ g) = crcRun (crcRun c f) g :=
  List.foldl_append

/-- Changing one byte of a sequence changes its CRC, whatever the byte is changed to. -/
theorem crcRun_set_ne (c : Word) (f : List Byte) (i : Nat) (b : Byte) (hi : i < f.length) (hb : b ≠ f.getD i 0#8) :
    crcRun c (f.set i b) ≠ crcRun c f := by
  induction f generalizing c i with
  | nil => simp at hi
  | cons a f ih =>
    cases i with
    | zero => exact fun h => hb (crcUpdate_right_injective c (crcRun_left_injective f h))
    | succ i => exact ih (crcUpdate c a) i (by simpa using hi) hb

/-! ## The two CRC bytes -/

@[simp] theorem be16_hi8_lo8 (c : Word) : be16 (hi8 c) (lo8 c) = c := by
  refine BitVec.eq_of_getLsbD_eq fun i hi => ?_
  simp only [be16, hi8, lo8, BitVec.getLsbD_append, BitVec.getLsbD_extractLsb']
  by_cases h : i < 8
  · simp [h]
  · have hsub : i - 8 < 8 := by omega
    have hadd : 8 + (i - 8) = i := by omega
    simp [h, hsub, hadd]

/-- The low byte of the register takes it to its high byte (R132, R134). -/
theorem crcUpdate_lo8 (c : Word) : crcUpdate c (lo8 c) = (hi8 c).setWidth 16 := by
  have hlow : ∀ i, i < 8 → (c ^^^ (lo8 c).setWidth 16).getLsbD i = false := fun i hi => by
    have : i < 16 := by omega
    simp [lo8, hi, this]
  rw [crcUpdate, crcShifts_of_low_zero 8 _ hlow]
  refine BitVec.eq_of_getLsbD_eq fun i hi => ?_
  by_cases h : i < 8
  · simp [lo8, hi8, h, hi]
  · have hout : c.getLsbD (8 + i) = false := BitVec.getLsbD_of_ge c (8 + i) (by omega)
    simp [lo8, hi8, h, hout]

theorem crcUpdate_self (b : Byte) : crcUpdate (b.setWidth 16) b = 0#16 := by
  simp [crcUpdate]

/-- The register's own bytes, low byte first, take it to 0 (R136). -/
theorem crcRun_own_bytes (c : Word) : crcRun c [lo8 c, hi8 c] = 0#16 := by
  show crcUpdate (crcUpdate c (lo8 c)) (hi8 c) = 0#16
  rw [crcUpdate_lo8, crcUpdate_self]

/-- Two bytes take the register to 0 exactly when they are its own (R136). -/
theorem crcRun_two_eq_zero_iff (c : Word) (l h : Byte) : crcRun c [l, h] = 0#16 ↔ c = be16 h l := by
  have hown : crcRun (be16 h l) [l, h] = 0#16 := by simpa using crcRun_own_bytes (be16 h l)
  constructor
  · exact fun hzero => crcRun_left_injective [l, h] (hzero.trans hown.symm)
  · rintro rfl
    exact hown

/-- The check on a sequence followed by two bytes (R135). -/
theorem crcOk_append_two (s : List Byte) (l h : Byte) : crcOk (s ++ [l, h]) = decide (crc16 s = be16 h l) := by
  have htake : (s ++ [l, h]).take ((s ++ [l, h]).length - 2) = s := by simp
  have hlast : (s ++ [l, h]).getD ((s ++ [l, h]).length - 1) 0#8 = h := by simp [List.getD_eq_getElem?_getD]
  have hprev : (s ++ [l, h]).getD ((s ++ [l, h]).length - 2) 0#8 = l := by simp [List.getD_eq_getElem?_getD]
  rw [crcOk, htake, hlast, hprev]

/-- A sequence of at least two bytes is one followed by two bytes. -/
theorem exists_append_two (f : List Byte) (hf : 2 ≤ f.length) : ∃ s l h, f = s ++ [l, h] := by
  have hdrop : (f.drop (f.length - 2)).length = 2 := by simp; omega
  obtain ⟨l, h, hlh⟩ := List.length_eq_two.1 hdrop
  exact ⟨f.take (f.length - 2), l, h, by rw [← hlh, List.take_append_drop]⟩

/-- The check accepts exactly the frames with residue 0 (R136). -/
theorem crcOk_iff_residue (f : List Byte) (hf : 2 ≤ f.length) : crcOk f = true ↔ crc16 f = 0#16 := by
  obtain ⟨s, l, h, rfl⟩ := exists_append_two f hf
  rw [crcOk_append_two, decide_eq_true_eq, crc16, crc16, crcRun_append, crcRun_two_eq_zero_iff]

/-- What the generator appends, the check accepts (R134, R135). -/
@[simp] theorem crcOk_append_crcGen (s : List Byte) : crcOk (s ++ crcGen s) = true := by
  rw [crcGen, crcOk_append_two, be16_hi8_lo8]
  exact decide_eq_true rfl

/-- A frame with one bit inverted is another frame (R138). -/
theorem flip_ne (b : Byte) (j : Nat) (hj : j < 8) : b ^^^ (1#8 <<< j) ≠ b := by
  intro h
  have hbit := congrArg (fun x => x.getLsbD j) h
  simp [hj] at hbit

/-! ## The codec -/

/-- Without receiver flags a frame of at least four bytes is decoded or dropped by its CRC alone (R195). -/
theorem decodeFrame_of_length (f : List Byte) (hf : 4 ≤ f.length) : decodeFrame false false false f =
    if crcOk f then .ok ⟨f.getD 0 0#8, f.getD 1 0#8, (f.take (f.length - 2)).drop 2⟩ else .error .crcMismatch := by
  have hshort : ¬ f.length < 4 := by omega
  cases hcrc : crcOk f <;> simp [decodeFrame, hshort, hcrc]

/-- A frame decodes to what it was encoded from (R182, R195). -/
theorem decodeFrame_encodeFrame (addr fc : Byte) (p : List Byte) :
    decodeFrame false false false (encodeFrame addr fc p) = .ok ⟨addr, fc, p⟩ := by
  have hcrc : crcOk (encodeFrame addr fc p) = true := crcOk_append_crcGen _
  rw [decodeFrame_of_length _ (by simp), if_pos hcrc]
  simp [encodeFrame, crcGen]

end Sys2Proof.Machine

open Sys2Proof Sys2Proof.Machine

/-- Settles O5: the sequence leaves the register at `c`, whose own two bytes take it to 0, and no other two bytes do. -/
theorem crcResidueIsZero : Obligations.CrcResidueIsZero := by
  refine ⟨fun s => ?_, fun f hf => crcOk_iff_residue f (by omega)⟩
  rw [crc16, crcRun_append]
  exact crcRun_own_bytes (crc16 s)

/-- Settles O6: inverting a bit changes its byte, a changed byte changes the CRC, and only residue 0 is accepted. -/
theorem crcDetectsSingleBitErrors : Obligations.CrcDetectsSingleBitErrors := by
  refine ⟨crcOk_append_crcGen, fun f i j hlen hok hi hj => ?_⟩
  have hzero : crc16 f = 0#16 := (crcOk_iff_residue f (by omega)).1 hok
  have hchanged : crc16 (f.set i (f.getD i 0#8 ^^^ (1#8 <<< j))) ≠ 0#16 := by
    rw [← hzero]
    exact crcRun_set_ne _ f i _ hi (flip_ne _ j hj)
  have hbad : crcOk (f.set i (f.getD i 0#8 ^^^ (1#8 <<< j))) = false := by
    rw [← Bool.not_eq_true, crcOk_iff_residue _ (by rw [List.length_set]; omega)]
    exact hchanged
  refine ⟨hbad, ?_⟩
  rw [decodeFrame_of_length _ (by rwa [List.length_set]), hbad]
  rfl

end

section
/-! PROOFS. Encoding and characters: what the encoder makes of operands and commands the decoder reads back (30_encoding.md R100 to R107,
42_frame_codec.md R182, R195), and what a character carries over the line its samples give back (41_uart.md R153 to R159). -/

namespace Sys2Proof.Machine

/-! ## Operands -/

@[simp] theorem pairOf_pairPayload (q : PairReq) (h : q.wellFormed = true) : pairOf (pairPayload q) = q := by
  cases q with
  | pair a b => simp [pairPayload, pairOf]
  | malformed p =>
    have hlen : p.length ≠ 4 := by simp_all [PairReq.wellFormed]
    show pairOf p = .malformed p
    unfold pairOf
    split
    · simp at hlen
    · rfl

@[simp] theorem multiOf_multiPayload (q : MultiReq) (h : q.wellFormed = true) : multiOf (multiPayload q) = q := by
  cases q with
  | multi start qty bc data => simp [multiPayload, multiOf]
  | short p =>
    have hlen : p.length < 5 := by simpa [MultiReq.wellFormed] using h
    show multiOf p = .short p
    unfold multiOf
    split
    · simp only [List.length_cons] at hlen
      omega
    · rfl

/-- An exception's function code is none of the eight of the map, has bit 7 set and keeps its low bits (R106, R107). -/
theorem decodePdu_highFc (addr : Byte) (fc7 : BitVec 7) (p : List Byte) :
    decodePdu addr (highFc fc7) p = .ok (.exception addr fc7 p) := by
  have hbits : (highFc fc7).getLsbD 7 = true ∧ (highFc fc7).extractLsb' 0 7 = fc7 := by
    revert fc7
    decide
  have hcode : ∀ fc : Byte, fc.getLsbD 7 = false → highFc fc7 ≠ fc := by
    rintro _ hfc rfl
    exact Bool.noConfusion (hbits.1.symm.trans hfc)
  simp [decodePdu, hbits, hcode]

/-- A frame of a row of the map decodes to the instruction of that row (R107, R195). -/
theorem decode_frame_of_decodePdu (addr fc : Byte) (p : List Byte) (i : Instr) (h : decodePdu addr fc p = .ok i) :
    decode (.frame (encodeFrame addr fc p)) = .ok [i] := by
  simp [decode, decodeFrame_encodeFrame, h]

/-- A frame written out with its CRC bytes, low byte first, is the encoding of its parts (R134, R182). -/
theorem encodeFrame_eq_of_crc (addr fc : Byte) (p : List Byte) (l h : Byte) (hcrc : crc16 (addr :: fc :: p) = be16 h l) :
    encodeFrame addr fc p = addr :: fc :: p ++ [l, h] := by
  simp [encodeFrame, crcGen, hcrc]

/-- A field written zero-extended to a register is read back from its low bits (R361). -/
theorem extractLsb'_setWidth_32 {w : Nat} (x : BitVec w) (hw : w ≤ 32) : (x.setWidth 32).extractLsb' 0 w = x := by
  refine BitVec.eq_of_getLsbD_eq fun i hi => ?_
  have : i < 32 := by omega
  simp [hi, this]

/-! ## Characters -/

@[simp] theorem dataBits_length (b : Byte) : (dataBits b).length = 8 := by simp [dataBits]

/-- The data bits, one by one (R155). -/
theorem dataBits_eq (b : Byte) : dataBits b =
    [b.getLsbD 0, b.getLsbD 1, b.getLsbD 2, b.getLsbD 3, b.getLsbD 4, b.getLsbD 5, b.getLsbD 6, b.getLsbD 7] := rfl

/-- The parity of the data bits, written out (R156). -/
theorem xorBits_eq (b : Byte) : xorBits b = (b.getLsbD 0 ^^ b.getLsbD 1 ^^ b.getLsbD 2 ^^ b.getLsbD 3 ^^ b.getLsbD 4 ^^
    b.getLsbD 5 ^^ b.getLsbD 6 ^^ b.getLsbD 7) := by
  simp [xorBits, dataBits_eq]

@[simp] theorem byteOfSamples_dataBits (b : Byte) : byteOfSamples (dataBits b) = b := by
  revert b
  decide

/-- Samples that begin with the data bits of a byte give that byte; the samples after them decide the error flag (R158). -/
theorem sampledChar_dataBits (parity : BitVec 2) (b : Byte) (l : List Bool) : sampledChar parity (dataBits b ++ l) =
    (b, if parity = 0#2 then !(l.getD 0 true) else (l.getD 0 true != parityBit parity b) || !(l.getD 1 true)) := by
  have hdata : ((List.range 8).map fun i => (dataBits b ++ l).getD i true) = dataBits b := by
    rw [dataBits_eq]
    rfl
  have h8 : (dataBits b ++ l).getD 8 true = l.getD 0 true := by rw [dataBits_eq]; rfl
  have h9 : (dataBits b ++ l).getD 9 true = l.getD 1 true := by rw [dataBits_eq]; rfl
  simp only [sampledChar, hdata, h8, h9, byteOfSamples_dataBits]
  split <;> rfl

/-- The samples of a character, taken after its start bit: data bits, parity bit, stop bits (R153, R158). -/
theorem charBits_drop_one (parity : BitVec 2) (stop2 : Bool) (b : Byte) : (charBits parity stop2 b).drop 1 =
    dataBits b ++ ((if parity = 0#2 then [] else [parityBit parity b]) ++ if stop2 then [true, true] else [true]) := by
  simp [charBits]

/-- A sample after the data bits, changed. -/
theorem dataBits_append_set (b : Byte) (l : List Bool) (i : Nat) (v : Bool) :
    (dataBits b ++ l).set (8 + i) v = dataBits b ++ l.set i v := by
  rw [List.set_append_right _ _ (by simp), dataBits_length, Nat.add_sub_cancel_left]

/-- The three parity settings a session can have (R151). -/
theorem parity_cases (parity : BitVec 2) (h : parity ≠ 3#2) : parity = 0#2 ∨ parity = 1#2 ∨ parity = 2#2 := by
  revert parity
  decide

end Sys2Proof.Machine

open Sys2Proof Sys2Proof.Machine

/-- Settles O1: a frame decodes to what it was encoded from, operands are read back from their payload, and a command is the one bit
it sets. -/
theorem decodeEncodeAgree : Obligations.DecodeEncodeAgree := by
  intro i hwf
  cases i with
  | readCoils a q | readDiscreteInputs a q | readHoldingRegisters a q | readInputRegisters a q | writeSingleCoil a q
  | writeSingleRegister a q => exact decode_frame_of_decodePdu _ _ _ _ (by simp [decodePdu, pairOf_pairPayload q hwf])
  | writeMultipleCoils a q | writeMultipleRegisters a q =>
    exact decode_frame_of_decodePdu _ _ _ _ (by simp [decodePdu, multiOf_multiPayload q hwf])
  | exception a fc7 p => exact decode_frame_of_decodePdu _ _ _ _ (decodePdu_highFc a fc7 p)
  | openCmd | closeCmd | goCmd | dsgoCmd | crcInit => decide
  | crcDataWrite b => simp [encode, decode, decodeCsr, extractLsb'_setWidth_32]
  | evtClear m => simp [encode, decode, decodeCsr, extractLsb'_setWidth_32]

/-- Settles O2: each frame ends with the CRC of its other bytes, so it is the encoding of its instruction; the writes are evaluated. -/
theorem specWordsDecode : Obligations.SpecWordsDecode := by
  have hframe : ∀ (addr fc : Byte) (p : List Byte) (l h : Byte) (i : Instr), crc16 (addr :: fc :: p) = be16 h l →
      decodePdu addr fc p = .ok i → decode (.frame (addr :: fc :: p ++ [l, h])) = .ok [i] :=
    fun addr fc p l h i hcrc hpdu => encodeFrame_eq_of_crc addr fc p l h hcrc ▸ decode_frame_of_decodePdu addr fc p i hpdu
  refine ⟨hframe 0x01 0x03 [0x00, 0x00, 0x00, 0x0A] _ _ _ ?_ rfl, hframe 0x01 0x05 [0x00, 0x03, 0xFF, 0x00] _ _ _ ?_ rfl,
    hframe 0x01 0x0F [0x00, 0x04, 0x00, 0x0A, 0x02, 0xCD, 0x01] _ _ _ ?_ rfl, hframe 0x01 0x83 [0x02] _ _ _ ?_ rfl,
    by decide, by decide⟩ <;>
  simp [crc16, crcRun, crcUpdate, crcShifts, crcShift, crcInitial, be16]

/-- Settles O4: the two instructions are their register updates, and the eight shifts are an iteration of the one shift. -/
theorem crcPortInstructions : Obligations.CrcPortInstructions :=
  fun _ _ => ⟨rfl, rfl⟩

/-- Settles O7: the samples begin with the data bits, so the byte is right whatever follows; what follows is the parity bit, where
there is one, and the stop bits, and the clauses change one of them. -/
theorem characterRoundTrip : Obligations.CharacterRoundTrip := by
  intro b parity stop2 x hparity hx
  rw [← xorBits_eq] at hx
  have hset : ∀ (l : List Bool) v, (dataBits b ++ l).set 8 v = dataBits b ++ l.set 0 v := fun l => dataBits_append_set b l 0
  have hset1 : ∀ (l : List Bool) v, (dataBits b ++ l).set 9 v = dataBits b ++ l.set 1 v := fun l => dataBits_append_set b l 1
  have hset2 : ∀ (l : List Bool) v, (dataBits b ++ l).set 10 v = dataBits b ++ l.set 2 v := fun l => dataBits_append_set b l 2
  have hbits : charBits parity stop2 b = false :: dataBits b ++
      ((if parity = 0#2 then [] else [parityBit parity b]) ++ if stop2 then [true, true] else [true]) := by
    simp [charBits]
  rw [charBits_drop_one]
  refine ⟨?_, ?_, ?_, ?_, ?_, ?_, ?_⟩
  · obtain rfl | rfl | rfl := parity_cases parity hparity <;> simp [charBits, parityBit, dataBits_eq, hx]
  · obtain rfl | rfl | rfl := parity_cases parity hparity <;> cases stop2 <;> simp [charBits, charTicks]
  · obtain rfl | rfl | rfl := parity_cases parity hparity <;> cases stop2 <;> simp [sampledChar_dataBits]
  · rintro rfl
    simp [hset, sampledChar_dataBits, parityBit, hx]
  · rintro rfl
    simp [hset, sampledChar_dataBits, parityBit, hx]
  · obtain rfl | rfl | rfl := parity_cases parity hparity <;> cases stop2 <;> simp [hset, hset1, sampledChar_dataBits]
  · rintro rfl
    obtain rfl | rfl | rfl := parity_cases parity hparity <;> simp [hset1, hset2, sampledChar_dataBits]

/-- Settles O8: the table is finite; each row is evaluated. -/
theorem characterFormats : Obligations.CharacterFormats := by
  unfold Obligations.CharacterFormats
  decide

end

section
/-! PROOFS. The steps of the line (42_frame_codec.md R186 to R191, 46_client_fsm.md R298 to R306): what a tick and a character do to counters,
receiver and client, each said once. -/

namespace Sys2Proof.Machine

/-! ## The event of a step -/

/-- A listed event is handled on the state with that event taken off the list (R10). -/
theorem step_of_event (s : State) (e : Event) (rest : List Event) (hin : s.inputs = e :: rest) :
    step s = handle e (s.taken rest) := by
  simp [step, nextEvent, hin]

/-- With no event listed a step is the block's own `TxChar` (log 1). -/
theorem step_of_nil (s : State) (hin : s.inputs = []) : step s = handle .txChar (s.taken []) := by
  simp [step, nextEvent, hin]

section
variable {s : State} {rest : List Event} (hrst : s.rstN = true) (hopen : s.isOpen = true) (htx : s.tx.active = false)

include hrst in
theorem step_of_idleTick (hin : s.inputs = .idleTick :: rest) : step s = idleTick (s.taken rest) := by
  simp [step_of_event s _ rest hin, handle, hrst]

include hopen htx in
/-- An `IdleTick` that occurs: counters, receiver, client (R190). -/
theorem idleTick_of_lineFree : idleTick s = andThen (idleReceiver (idleCounters s)) fun t => .next (clientTick t) := by
  simp [idleTick, State.lineFree, hopen, htx]

include hopen htx in
/-- A character that arrives: timer, receiver, silence counter, then the test of the response timer (R191). -/
theorem rxChar_of_lineFree (b : Byte) (err : Bool) : rxChar b err s =
    .next (clientAfterChar { advanceTimer (s.cfg.cb.setWidth 32) s with rx := rxTake b err s.rx, sil := 0#32 }) := by
  simp [rxChar, State.lineFree, hopen, htx]

end

/-! ## Counters -/

/-- The response timer after `n` ticks (R300). -/
def elapsedAfter (n : BitVec 32) (c : Client) : BitVec 32 :=
  if c.state = .await then c.respElapsed + n else c.respElapsed

theorem elapsedAfter_of_await (n : BitVec 32) (c : Client) (h : c.state = .await) :
    elapsedAfter n c = c.respElapsed + n := if_pos h

theorem elapsedAfter_of_not_await (n : BitVec 32) (c : Client) (h : c.state ≠ .await) :
    elapsedAfter n c = c.respElapsed := if_neg h

theorem advanceTimer_eq (n : BitVec 32) (s : State) :
    advanceTimer n s = { s with client := { s.client with respElapsed := elapsedAfter n s.client } } := by
  unfold advanceTimer elapsedAfter
  split <;> rfl

theorem idleCounters_eq (s : State) : idleCounters s =
    { s with sil := silNext s.sil, client := { s.client with respElapsed := elapsedAfter 1#32 s.client } } :=
  advanceTimer_eq 1#32 _

/-- The timer counts in the naturals while its 32 bits hold the sum (R300). -/
theorem elapsedAfter_toNat (n : BitVec 32) (c : Client) (h : c.state = .await)
    (hfits : c.respElapsed.toNat + n.toNat < 4294967296) :
    (elapsedAfter n c).toNat = c.respElapsed.toNat + n.toNat := by
  rw [elapsedAfter_of_await n c h, BitVec.toNat_add]
  omega

/-! ## The receiver on a tick -/

/-- The receiver's state after an idle tick that brings the silence counter to `sil` and ends no frame (R190). -/
def rxTickState (c : Cfg) (sil : Nat) (r : Rx) : RxState :=
  if r.en then
    match r.state with
    | .init => if c.t35.toNat ≤ sil then .idle else .init
    | .idle => .idle
    | .recv => if c.t15.toNat ≤ sil then .ctrlWait else .recv
    | .ctrlWait => .ctrlWait
  else r.state

/-- `rxTickState` is what the block's receiver does on a tick that ends no frame (R190). -/
theorem idleReceiver_of_not_frameEnds (s : State) (h : ¬FrameEnds s.cfg s.sil.toNat s.rx) :
    idleReceiver s = .next (setRxState (rxTickState s.cfg s.sil.toNat s.rx) s) := by
  have hkeep : ∀ st, s.rx.state = st → .next s = (.next (setRxState st s) : Host.Outcome State Fault Refusal) := by
    rintro _ rfl
    rfl
  unfold idleReceiver rxTickState
  cases hen : s.rx.en with
  | false => exact hkeep _ rfl
  | true =>
    cases hst : s.rx.state with
    | init => by_cases hsil : s.cfg.t35.toNat ≤ s.sil.toNat <;> simp [hsil, hkeep _ hst]
    | idle => exact hkeep _ hst
    | recv => by_cases hsil : s.cfg.t15.toNat ≤ s.sil.toNat <;> simp [hsil, hkeep _ hst]
    | ctrlWait =>
      have hsil : ¬s.cfg.t35.toNat ≤ s.sil.toNat := fun hsil => h ⟨hen, hst, hsil⟩
      simp [hsil, hkeep _ hst]

theorem rxTickState_receiverTicks (c : Cfg) (sil : Nat) (r : Rx) :
    ReceiverTicks c sil r { r with state := rxTickState c sil r } := by
  refine ⟨rfl, fun hen => ?_, fun hen hst => ?_, fun hen hst => ?_, fun hen hst => ?_, fun hen hst => ?_⟩
  · exact if_neg (by simp [hen])
  all_goals simp [rxTickState, hen, hst]

/-! ## The receiver on a character -/

theorem storeChar_of_room (b : Byte) (err : Bool) (r : Rx) (h : r.len.toNat < 256) : storeChar b err r =
    { r with charErr := r.charErr || err, buf := writeCell r.buf r.len.toNat b, len := r.len + 1#9 } := if_pos h

theorem storeChar_of_full (b : Byte) (err : Bool) (r : Rx) (h : 256 ≤ r.len.toNat) : storeChar b err r =
    { r with charErr := r.charErr || err, overrun := true } := if_neg (Nat.not_lt.2 h)

/-- A receiver that is off, or waits for the line to fall silent, takes no character (R191). -/
theorem rxTake_of_deaf (b : Byte) (err : Bool) (r : Rx) (h : r.en = false ∨ r.state = .init) : rxTake b err r = r := by
  unfold rxTake
  obtain hen | hst := h
  · simp [hen]
  · split <;> simp [hst]

/-- The first character of a frame (R191). -/
theorem rxTake_of_idle (b : Byte) (err : Bool) (r : Rx) (hen : r.en = true) (hst : r.state = .idle) : rxTake b err r =
    { r with
      state := .recv, len := 1#9, overrun := false, charErr := err, gap := false, buf := writeCell r.buf 0 b } := by
  unfold rxTake
  rw [if_pos hen, hst]
  simp [storeChar_of_room]

/-- A character within a frame, on time or after a gap (R191). -/
theorem rxTake_of_frame (b : Byte) (err : Bool) (r : Rx) (hen : r.en = true) (hst : r.state = .recv ∨ r.state = .ctrlWait) :
    rxTake b err r = storeChar b err { r with state := .recv, gap := r.gap || decide (r.state = .ctrlWait) } := by
  have hstore : ∀ x : Rx, { storeChar b err x with state := .recv } = storeChar b err { x with state := .recv } := by
    intro x
    unfold storeChar
    split <;> rfl
  obtain ⟨state, en, buf, len, overrun, charErr, gap⟩ := r
  cases hen
  obtain rfl | rfl := hst
  · simp [rxTake]
  · simp [rxTake, hstore]

theorem rxTake_receiverTakes (b : Byte) (err : Bool) (r : Rx) (hbuf : cellsWf r.buf = true) :
    ReceiverTakes b err r (rxTake b err r) := by
  have hsame : ∀ a, readCell (writeCell r.buf a b) a = b := fun a => readCell_writeCell_same r.buf a b hbuf
  have hother : ∀ a k, k ≠ a → readCell (writeCell r.buf a b) k = readCell r.buf k :=
    fun a k hk => readCell_writeCell_ne r.buf a k b hk
  refine ⟨?_, rxTake_of_deaf b err r, fun hen hst => ?_, fun hen hst => ?_⟩
  · unfold rxTake storeChar
    repeat' split
    all_goals rfl
  · rw [rxTake_of_idle b err r hen hst]
    exact ⟨rfl, rfl, rfl, rfl, rfl, hsame 0, fun a ha => hother 0 a ha⟩
  · rw [rxTake_of_frame b err r hen hst]
    by_cases hroom : r.len.toNat < 256
    · rw [storeChar_of_room b err { r with state := .recv, gap := _ } hroom]
      exact ⟨rfl, rfl, rfl, fun _ => ⟨rfl, rfl, hsame _, fun a ha => hother _ a ha⟩,
        fun hfull => absurd hroom (Nat.not_lt.2 hfull)⟩
    · rw [storeChar_of_full b err { r with state := .recv, gap := _ } (Nat.not_lt.1 hroom)]
      exact ⟨rfl, rfl, rfl, fun h => absurd h hroom, fun _ => ⟨rfl, rfl, rfl⟩⟩

/-! ## The client on a tick -/

/-- An open response window stays as it is (R300). -/
theorem clientAfterChar_of_open (s : State)
    (h : s.client.state = .await → s.client.respElapsed.toNat < s.cfg.tmo.toNat) : clientAfterChar s = s :=
  if_neg fun ⟨hst, htmo⟩ => Nat.not_lt.2 htmo (h hst)

/-- A response window that has run out ends the wait (R300, R304). -/
theorem clientAfterChar_of_closed (s : State) (hst : s.client.state = .await)
    (htmo : s.cfg.tmo.toNat ≤ s.client.respElapsed.toNat) : clientAfterChar s = timedOut s :=
  if_pos ⟨hst, htmo⟩

theorem clientTrySend_of_not_sending (s : State) (h : s.client.state ≠ .sending) : clientTrySend s = s :=
  if_neg fun ⟨hst, _⟩ => h hst

theorem clientTrySend_of_active (s : State) (h : s.tx.active = true) : clientTrySend s = s :=
  if_neg fun ⟨_, htx, _⟩ => Bool.noConfusion (h.symm.trans htx)

/-- A frame waiting on a line that does not transmit starts exactly after `cfg.t35` ticks of silence (R298). -/
theorem clientTrySend_of_sending (s : State) (hst : s.client.state = .sending) (htx : s.tx.active = false) :
    clientTrySend s = if s.cfg.t35.toNat ≤ s.sil.toNat then txStart s else s := by
  simp [clientTrySend, hst, htx]

/-- A client that neither sends nor has its window closed does nothing on a tick (R300). -/
theorem clientTick_of_quiet (s : State) (hst : s.client.state ≠ .sending)
    (h : s.client.state = .await → s.client.respElapsed.toNat < s.cfg.tmo.toNat) : clientTick s = s := by
  rw [clientTick, clientAfterChar_of_open s h, clientTrySend_of_not_sending s hst]

/-- With no retry left a failed exchange is over (R306). -/
theorem retryOrFail_of_none (code : ResultCode) (k : Option FrameError) (s : State) (h : s.client.retryLeft = 0#8) :
    retryOrFail code k s = setCState .idle (finish ⟨code, k, 0#8, s.client.retryBound⟩ s) :=
  if_neg (by simp [h])

/-- With retries left the request waits to be sent again (R306). -/
theorem retryOrFail_of_left (code : ResultCode) (k : Option FrameError) (s : State) (h : s.client.retryLeft ≠ 0#8) :
    retryOrFail code k s = clientTrySend
      { s with client := { s.client with state := .sending, retryLeft := s.client.retryLeft - 1#8 } } :=
  if_pos (Nat.pos_iff_ne_zero.2 fun hzero => h (BitVec.eq_of_toNat_eq hzero))

/-- The failure of an exchange as R306 gives it, on a line that does not transmit. -/
theorem retryOrFail_retriesOrFails (code : ResultCode) (k : Option FrameError) (flags : BitVec 5) (st : CState) (s : State)
    (htx : s.tx.active = false) :
    RetriesOrFails code k flags s (.next (retryOrFail code k (State.setEvt flags (rxOff (setCState st s))))) := by
  refine ⟨fun hnone => ?_, fun hleft => ?_⟩
  · have hor : s.regs.evt ||| flags ||| evtDone = s.regs.evt ||| (flags ||| 0x01#5) := BitVec.or_assoc _ _ _
    rw [retryOrFail_of_none code k (State.setEvt flags (rxOff (setCState st s))) hnone]
    simp only [setCState, finish, State.setEvt, rxOff, hor]
  · rw [retryOrFail_of_left code k (State.setEvt flags (rxOff (setCState st s))) hleft,
      clientTrySend_of_sending]
    · by_cases hsil : s.cfg.t35.toNat ≤ s.sil.toNat <;> simp [setCState, State.setEvt, rxOff, txStart, hsil]
    · rfl
    · exact htx

theorem timedOut_retriesOrFails (s : State) (htx : s.tx.active = false) :
    RetriesOrFails .timeout none 0#5 s (.next (timedOut s)) := by
  have hflags : State.setEvt 0#5 (rxOff (setCState .timedOut s)) = rxOff (setCState .timedOut s) := by
    simp [State.setEvt, rxOff, setCState]
  have h := retryOrFail_retriesOrFails .timeout none 0#5 .timedOut s htx
  rwa [hflags] at h

theorem crcError_retriesOrFails (k : FrameError) (s : State) (htx : s.tx.active = false) :
    RetriesOrFails .corruptedResponse (some k) 0x04#5 s (.next (crcError k s)) :=
  retryOrFail_retriesOrFails .corruptedResponse (some k) 0x04#5 .crcErr s htx

/-- A failed exchange is over, or has been sent again already: the rest of a tick adds nothing (R300, R306). -/
theorem clientTick_of_retriesOrFails {code : ResultCode} {k : Option FrameError} {flags : BitVec 5} {s t : State}
    (htx : s.tx.active = false) (h : RetriesOrFails code k flags s (.next t)) : clientTick t = t := by
  by_cases hleft : s.client.retryLeft = 0#8
  · cases h.1 hleft
    exact clientTick_of_idle _ rfl
  · cases h.2 hleft
    rw [clientTick, clientAfterChar_of_open _ fun hst => by cases hst]
    by_cases hsil : s.cfg.t35.toNat ≤ s.sil.toNat
    · exact clientTrySend_of_active _ (by simp [hsil])
    · rw [clientTrySend_of_sending _ rfl (by simp [hsil, htx]), if_neg hsil]

/-- The tick that finds the response window run out (R300, R304). -/
theorem clientTick_retriesOrFails (s : State) (htx : s.tx.active = false) (hst : s.client.state = .await)
    (htmo : s.cfg.tmo.toNat ≤ s.client.respElapsed.toNat) :
    RetriesOrFails .timeout none 0#5 s (.next (clientTick s)) := by
  have hout := timedOut_retriesOrFails s htx
  have hsend : clientTick s = clientTrySend (timedOut s) := by rw [clientTick, clientAfterChar_of_closed s hst htmo]
  have hafter : clientAfterChar (timedOut s) = timedOut s := by
    refine clientAfterChar_of_open _ fun h => ?_
    by_cases hleft : s.client.retryLeft = 0#8
    · have := hout.1 hleft
      simp only [Host.Outcome.next.injEq] at this
      simp [this] at h
    · have := hout.2 hleft
      simp only [Host.Outcome.next.injEq] at this
      simp [this] at h
  have hdone : clientTrySend (timedOut s) = timedOut s := by
    have := clientTick_of_retriesOrFails htx hout
    rwa [clientTick, hafter] at this
  rwa [hsend, hdone]

end Sys2Proof.Machine
end

section
/-! PROOFS. A frame on the line (42_frame_codec.md R190, R191, R200): the events of a frame's characters and of the silence after it, taken
one by one by a listening server, leave the encoded bytes in the receiver. -/

namespace Sys2Proof.Machine

/-! ## Runs -/

/-- A run goes on from the state a step answers with. -/
theorem runsTo_of_step {k : Nat} {s t : State} {goal : State → Prop} (h : step s = .next t) (hrun : runsTo k t goal) :
    runsTo (k + 1) s goal := by
  obtain ⟨u, hu, hgoal⟩ := hrun
  refine ⟨u, ?_, hgoal⟩
  have hcore : core.step s = .next t := h
  simp only [Host.Core.run, hcore]
  exact hu

/-- A run of at least one step does not read what an earlier step put out (log 2). -/
theorem runsTo_clear_out {k : Nat} {s : State} {goal : State → Prop} (hk : 0 < k)
    (h : runsTo k { s with out := .nothing } goal) : runsTo k s goal := by
  cases k with
  | zero => simp at hk
  | succ k => exact h

/-! ## A listening server on the line -/

/-- A server in a session that listens, its own line silent. -/
structure Listening (s : State) : Prop where
  rstN : s.rstN = true
  isOpen : s.isOpen = true
  quiet : s.tx.active = false
  client : s.client.state = .idle

/-- The server `s` with the events still to come, the silence counter and the receiver given. -/
def onLine (s : State) (ev : List Event) (sil : BitVec 32) (r : Rx) : State :=
  { s with inputs := ev, out := .nothing, sil := sil, rx := r }

section
variable {s : State} (hs : Listening s)
include hs

/-- A tick that ends no frame moves the counter and the receiver only (R190). -/
theorem step_onLine_idleTick (ev : List Event) (sil : BitVec 32) (r : Rx)
    (hend : ¬FrameEnds s.cfg (silNext sil).toNat r) : step (onLine s (.idleTick :: ev) sil r) =
      .next (onLine s ev (silNext sil) { r with state := rxTickState s.cfg (silNext sil).toNat r }) := by
  have hcount : idleCounters ((onLine s (.idleTick :: ev) sil r).taken ev) = onLine s ev (silNext sil) r := by
    rw [idleCounters_eq, elapsedAfter_of_not_await _ _ (by simp [onLine, hs.client])]
    rfl
  rw [step_of_idleTick (s := onLine s _ sil r) hs.rstN rfl,
    idleTick_of_lineFree (s := (onLine s _ sil r).taken ev) hs.isOpen hs.quiet, hcount,
    idleReceiver_of_not_frameEnds (onLine s ev (silNext sil) r) hend, andThen_of_next]
  exact congrArg _ (clientTick_of_idle (setRxState _ (onLine s ev (silNext sil) r)) hs.client)

/-- A character goes to the receiver and ends the silence (R191). -/
theorem step_onLine_rxChar (b : Byte) (err : Bool) (ev : List Event) (sil : BitVec 32) (r : Rx) :
    step (onLine s (.rxChar b err :: ev) sil r) = .next (onLine s ev 0#32 (rxTake b err r)) := by
  have htimer : advanceTimer (s.cfg.cb.setWidth 32) ((onLine s (.rxChar b err :: ev) sil r).taken ev) =
      onLine s ev sil r := by
    rw [advanceTimer_eq, elapsedAfter_of_not_await _ _ (by simp [onLine, hs.client])]
    rfl
  have hstep : step (onLine s (.rxChar b err :: ev) sil r) = rxChar b err ((onLine s (.rxChar b err :: ev) sil r).taken ev) := by
    rw [step_of_event _ _ ev rfl]
    exact if_pos hs.rstN
  rw [hstep, rxChar_of_lineFree (s := (onLine s _ sil r).taken ev) hs.isOpen hs.quiet]
  rw [show ((onLine s (.rxChar b err :: ev) sil r).taken ev).cfg = s.cfg from rfl, htimer]
  exact congrArg _ (clientAfterChar_of_open _ fun hst => CState.noConfusion (hs.client.symm.trans hst))

/-! ## The silence between characters -/

/-- Before a frame silence of any length leaves the receiver as it is (R190). -/
theorem runsTo_idle_before_frame {k : Nat} {goal : State → Prop} {ev : List Event} {r : Rx} (hst : r.state = .idle)
    (n : Nat) (sil : BitVec 32) (hgoal : ∀ sil', runsTo k (onLine s ev sil' r) goal) :
    runsTo (n + k) (onLine s (List.replicate n .idleTick ++ ev) sil r) goal := by
  induction n generalizing sil with
  | zero => simpa using hgoal sil
  | succ n ih =>
    have hend : ¬FrameEnds s.cfg (silNext sil).toNat r := fun ⟨_, h, _⟩ => by simp [hst] at h
    have hkeep : { r with state := rxTickState s.cfg (silNext sil).toNat r } = r := by
      obtain ⟨state, en, buf, len, overrun, charErr, gap⟩ := r
      cases hst
      cases en <;> rfl
    have hstep := step_onLine_idleTick hs (List.replicate n .idleTick ++ ev) sil r hend
    rw [hkeep] at hstep
    rw [show n + 1 + k = n + k + 1 by omega]
    exact runsTo_of_step hstep (ih (silNext sil))

/-- Within a frame silence below `cfg.t15` leaves the receiver as it is, and is counted (R190). -/
theorem runsTo_gap {k : Nat} {goal : State → Prop} {ev : List Event} {r : Rx} (hst : r.state = .recv)
    (n : Nat) (sil : BitVec 32) (hgap : sil.toNat + n < s.cfg.t15.toNat)
    (hgoal : ∀ sil', sil'.toNat = sil.toNat + n → runsTo k (onLine s ev sil' r) goal) :
    runsTo (n + k) (onLine s (List.replicate n .idleTick ++ ev) sil r) goal := by
  induction n generalizing sil with
  | zero => simpa using hgoal sil rfl
  | succ n ih =>
    have hsil : (silNext sil).toNat = sil.toNat + 1 := by
      have := s.cfg.t15.isLt
      rw [silNext_toNat]
      omega
    have hend : ¬FrameEnds s.cfg (silNext sil).toNat r := fun ⟨_, h, _⟩ => by simp [hst] at h
    have hkeep : { r with state := rxTickState s.cfg (silNext sil).toNat r } = r := by
      have hshort : ¬s.cfg.t15.toNat ≤ sil.toNat + 1 := by omega
      obtain ⟨state, en, buf, len, overrun, charErr, gap⟩ := r
      cases hst
      cases en <;> simp [rxTickState, hsil, hshort]
    have hstep := step_onLine_idleTick hs (List.replicate n .idleTick ++ ev) sil r hend
    rw [hkeep] at hstep
    rw [show n + 1 + k = n + k + 1 by omega]
    exact runsTo_of_step hstep (ih (silNext sil) (by omega) fun sil' h => hgoal sil' (by omega))

/-- After a frame the receiver waits for its end from `cfg.t15` ticks of silence on, while they are below `cfg.t35` (R190). -/
theorem runsTo_after_frame {k : Nat} {goal : State → Prop} {ev : List Event} {r : Rx} (hst : r.state = .ctrlWait)
    (n : Nat) (sil : BitVec 32) (hend : sil.toNat + n < s.cfg.t35.toNat)
    (hgoal : ∀ sil', sil'.toNat = sil.toNat + n → runsTo k (onLine s ev sil' r) goal) :
    runsTo (n + k) (onLine s (List.replicate n .idleTick ++ ev) sil r) goal := by
  induction n generalizing sil with
  | zero => simpa using hgoal sil rfl
  | succ n ih =>
    have hsil : (silNext sil).toNat = sil.toNat + 1 := by
      have := s.cfg.t35.isLt
      rw [silNext_toNat]
      omega
    have hgoes : ¬FrameEnds s.cfg (silNext sil).toNat r := fun ⟨_, _, h⟩ => by omega
    have hkeep : { r with state := rxTickState s.cfg (silNext sil).toNat r } = r := by
      obtain ⟨state, en, buf, len, overrun, charErr, gap⟩ := r
      cases hst
      cases en <;> rfl
    have hstep := step_onLine_idleTick hs (List.replicate n .idleTick ++ ev) sil r hgoes
    rw [hkeep] at hstep
    rw [show n + 1 + k = n + k + 1 by omega]
    exact runsTo_of_step hstep (ih (silNext sil) (by omega) fun sil' h => hgoal sil' (by omega))

/-- The tick that completes `cfg.t15` ticks of silence after a character (R190). -/
theorem step_onLine_pause (ev : List Event) (sil : BitVec 32) (r : Rx) (hen : r.en = true) (hst : r.state = .recv)
    (hsil : (silNext sil).toNat = s.cfg.t15.toNat) :
    step (onLine s (.idleTick :: ev) sil r) = .next (onLine s ev (silNext sil) { r with state := .ctrlWait }) := by
  have hend : ¬FrameEnds s.cfg (silNext sil).toNat r := fun ⟨_, h, _⟩ => by simp [hst] at h
  rw [step_onLine_idleTick hs ev sil r hend]
  simp [rxTickState, hen, hst, hsil]

end

/-! ## The bytes received -/

/-- The receiver is within a frame and holds the bytes `f`, none in error, late or lost. -/
structure Holds (f : List Byte) (r : Rx) : Prop where
  en : r.en = true
  state : r.state = .recv
  len : r.len.toNat = f.length
  bytes : readCells r.buf 0 f.length = f
  canonical : cellsWf r.buf = true
  clean : r.overrun = false ∧ r.charErr = false ∧ r.gap = false

/-- Writing the element after a range appends to what the range reads. -/
theorem readCells_writeCell_next {w : Nat} (c : Cells w) (n : Nat) (v : BitVec w) (h : cellsWf c = true) :
    readCells (writeCell c n v) 0 (n + 1) = readCells c 0 n ++ [v] := by
  have hold : ∀ i ∈ List.range n, readCell (writeCell c n v) (0 + i) = readCell c (0 + i) := fun i hi => by
    have := List.mem_range.1 hi
    exact readCell_writeCell_ne c n (0 + i) v (by omega)
  rw [readCells, List.range_succ, List.map_append, List.map_congr_left hold]
  simp [readCells, readCell_writeCell_same c n v h]

theorem holds_rxTake_of_idle (b : Byte) (r : Rx) (hen : r.en = true) (hst : r.state = .idle)
    (hbuf : cellsWf r.buf = true) : Holds [b] (rxTake b false r) := by
  rw [rxTake_of_idle b false r hen hst]
  exact ⟨hen, rfl, rfl, readCells_writeCell_next r.buf 0 b hbuf, cellsWf_writeCell _ _ _ hbuf, rfl, rfl, rfl⟩

theorem Holds.rxTake {f : List Byte} {r : Rx} (h : Holds f r) (b : Byte) (hroom : f.length < 256) :
    Holds (f ++ [b]) (rxTake b false r) := by
  obtain ⟨hen, hst, hlen, hbytes, hbuf, hover, herr, hgap⟩ := h
  have hr : r.len.toNat < 256 := by omega
  rw [rxTake_of_frame b false r hen (.inl hst), storeChar_of_room b false { r with state := .recv, gap := _ } hr]
  refine ⟨hen, rfl, ?_, ?_, cellsWf_writeCell _ _ _ hbuf, hover, by simp [herr], by simp [hgap, hst]⟩
  · rw [List.length_append, List.length_singleton, ← hlen]
    show (r.len + 1#9).toNat = _
    bv_omega
  · show readCells (writeCell r.buf r.len.toNat b) 0 (f ++ [b]).length = f ++ [b]
    rw [List.length_append, List.length_singleton, hlen, readCells_writeCell_next _ _ _ hbuf, hbytes]

/-! ## A whole frame -/

theorem lineScript_cons (x : Nat × Byte) (l : List (Nat × Byte)) :
    lineScript (x :: l) = List.replicate x.1 .idleTick ++ .rxChar x.2 false :: lineScript l := by
  simp [lineScript]

section
variable {s : State} (hs : Listening s)
include hs

/-- The characters of a frame after the first, each after a gap below `cfg.t15` (R191, R200). -/
theorem runsTo_characters {k : Nat} {goal : State → Prop} {ev : List Event} (l : List (Nat × Byte)) (f : List Byte)
    (r : Rx) (hr : Holds f r) (hgaps : ∀ x ∈ l, x.1 < s.cfg.t15.toNat) (hlen : f.length + l.length ≤ 256)
    (hgoal : ∀ r', Holds (f ++ l.map Prod.snd) r' → runsTo k (onLine s ev 0#32 r') goal) :
    runsTo ((lineScript l).length + k) (onLine s (lineScript l ++ ev) 0#32 r) goal := by
  induction l generalizing f r with
  | nil => simpa [lineScript] using hgoal r (by simpa using hr)
  | cons x l ih =>
    have hcount : (lineScript (x :: l)).length + k = x.1 + ((lineScript l).length + k + 1) := by
      simp [lineScript_cons]
      omega
    rw [hcount, lineScript_cons, List.append_assoc]
    refine runsTo_gap hs hr.state x.1 0#32 (by simpa using hgaps x (by simp)) fun sil _ => ?_
    refine runsTo_of_step (step_onLine_rxChar hs x.2 false _ sil r) ?_
    have hlen' : f.length + (l.length + 1) ≤ 256 := by simpa using hlen
    refine ih (f ++ [x.2]) _ (hr.rxTake x.2 (by omega)) (fun y hy => hgaps y (by simp [hy])) (by simp; omega) ?_
    simpa using hgoal

/-- The silence after a frame, one tick short of its end (R190, R200). -/
theorem runsTo_silence {goal : State → Prop} {ev : List Event} {r : Rx} (hen : r.en = true) (hst : r.state = .recv)
    (hmin : 1 ≤ s.cfg.t15.toNat) (hmax : s.cfg.t15.toNat < s.cfg.t35.toNat)
    (hgoal : ∀ sil : BitVec 32, sil.toNat + 1 = s.cfg.t35.toNat → goal (onLine s ev sil { r with state := .ctrlWait })) :
    runsTo (s.cfg.t35.toNat - 1) (onLine s (List.replicate (s.cfg.t35.toNat - 1) .idleTick ++ ev) 0#32 r) goal := by
  obtain ⟨m, hm⟩ : ∃ m, s.cfg.t35.toNat - 1 = (s.cfg.t15.toNat - 1) + (m + 1) :=
    ⟨s.cfg.t35.toNat - 1 - s.cfg.t15.toNat, by omega⟩
  have hzero : (0#32).toNat = 0 := rfl
  rw [hm, List.replicate_add, List.append_assoc]
  refine runsTo_gap hs hst _ 0#32 (by omega) fun sil hsil => ?_
  have hnext : (silNext sil).toNat = s.cfg.t15.toNat := by
    have := s.cfg.t15.isLt
    rw [silNext_toNat]
    omega
  refine runsTo_of_step (step_onLine_pause hs _ sil r hen hst hnext) ?_
  refine runsTo_after_frame (k := 0) hs rfl m (silNext sil) (by omega) fun sil' hsil' => ?_
  exact ⟨_, rfl, hgoal sil' (by omega)⟩

end

end Sys2Proof.Machine

open Sys2Proof Sys2Proof.Machine

/-- Settles O55: the silence before the frame, its first character, the others by induction, and the silence after it. -/
theorem frameArrivesWhole : Obligations.FrameArrivesWhole := by
  intro s l a fc p rest hinv hrst hrole hen hst hp hl hgaps hin
  obtain ⟨hidle, -, hclosed, hserver, -, hrespond, htx, hlisten⟩ := hinv.sequence
  obtain ⟨hopen, -⟩ := hlisten.1 hen
  obtain ⟨-, -, hcb, ht15, ht35, -⟩ := hinv.cfg hopen
  obtain ⟨-, -, -, hbuf, -⟩ := hinv.canonical
  have hclient : s.client.state = .idle := hserver hrole
  have hss : s.sstate = .listen := by
    obtain ⟨-, ⟨hclientRole, -⟩ | ⟨-, hst⟩⟩ := hlisten.1 hen
    · exact Role.noConfusion (hrole.symm.trans hclientRole)
    · exact hst
  have hs : Listening s := ⟨hrst, hopen, by simpa [hclient, hss] using htx, hclient⟩
  have hmin : 1 ≤ s.cfg.t15.toNat := by
    rw [ht15, hcb]
    unfold t15Of charTicks
    omega
  cases l with
  | nil => simp [encodeFrame] at hl
  | cons x l =>
    have hlen : l.length + 1 = p.length + 4 := by
      simpa using congrArg List.length hl
    have hcount : (lineScript (x :: l)).length + (s.cfg.t35.toNat - 1) =
        x.1 + ((lineScript l).length + (s.cfg.t35.toNat - 1) + 1) := by
      simp [lineScript_cons]
      omega
    have hstart : { s with out := .nothing } = onLine s (List.replicate x.1 .idleTick ++
        .rxChar x.2 false :: (lineScript l ++ (List.replicate (s.cfg.t35.toNat - 1) .idleTick ++ rest))) s.sil s.rx := by
      have hin' := hin
      simp only [lineScript_cons, List.append_assoc, List.cons_append] at hin'
      simp only [onLine, ← hin']
    rw [hcount]
    refine runsTo_clear_out (by omega) ?_
    rw [hstart]
    refine runsTo_idle_before_frame hs hst x.1 s.sil fun sil => ?_
    refine runsTo_of_step (step_onLine_rxChar hs x.2 false _ sil s.rx) ?_
    refine runsTo_characters hs l [x.2] _ (holds_rxTake_of_idle x.2 s.rx hen hst hbuf) hgaps (by simp; omega) fun r hr => ?_
    refine runsTo_silence hs hr.en hr.state hmin ht35 fun sil hsil => ⟨?_, rfl, hsil, rfl, rfl, rfl, rfl⟩
    have hframe : [x.2] ++ l.map Prod.snd = encodeFrame a fc p := hl
    rw [hframe] at hr
    have hbytes : rxFrame (onLine s rest sil { r with state := .ctrlWait }) = encodeFrame a fc p := by
      simpa [rxFrame, onLine, hr.len] using hr.bytes
    rw [hbytes]
    simpa [onLine, hr.clean] using decodeFrame_encodeFrame a fc p

end

section
/-! PROOFS. The functions of the router (43_pdu_router.md, 44_pdu_reads.md, 45_pdu_writes.md), said once for all of them: each answers, and
what it answers is an untouched Data Store or a range stored by a write whose checks passed. -/

namespace Sys2Proof.Machine

/-! ## What a function of the router answers -/

/-- `m'` is `m` with a sequence stored inside `coils` or inside `hr` (R71). -/
def StoresRange (p : Params) (m m' : Memory) : Prop :=
  (∃ a vs, a + List.length vs ≤ p.nCoils ∧ m' = { m with coils := writeCells m.coils a vs }) ∨
    ∃ a vs, a + List.length vs ≤ p.nHr ∧ m' = { m with hr := writeCells m.hr a vs }

/-- The function `fc` turns `m` into `m'` and replies `r`: nothing is stored, or a write's checks all passed (R227, R266). -/
def Serves (fc : Byte) (p : Params) (m m' : Memory) (r : Reply) : Prop :=
  r.payload.length ≤ 251 ∧ (m' = m ∨ (isWriteFc fc = true ∧ r.exc = 0#8 ∧ StoresRange p m m'))

/-- A function of the router: it never stops, and it serves (R220, R232). -/
def RouterFn (fc : Byte) (run : PduFn) : Prop := ∀ p m, ∃ m' r, run p m = .ok (m', r) ∧ Serves fc p m m' r

theorem RouterFn.serves {fc : Byte} {run : PduFn} (h : RouterFn fc run) {p : Params} {m m' : Memory} {r : Reply}
    (hrun : run p m = .ok (m', r)) : Serves fc p m m' r := by
  obtain ⟨m1, r1, hrun1, hserves⟩ := h p m
  cases hrun1.symm.trans hrun
  exact hserves

theorem StoresRange.inputs {p : Params} {m m' : Memory} (h : StoresRange p m m') : m'.di = m.di ∧ m'.ir = m.ir := by
  obtain ⟨a, vs, -, rfl⟩ | ⟨a, vs, -, rfl⟩ := h <;> exact ⟨rfl, rfl⟩

theorem StoresRange.wf {p : Params} {m m' : Memory} (h : StoresRange p m m') (hm : m.wf = true) : m'.wf = true := by
  obtain ⟨hcoils, hdi, hhr, hir⟩ := (Memory.wf_iff m).1 hm
  rw [Memory.wf_iff]
  obtain ⟨a, vs, -, rfl⟩ | ⟨a, vs, -, rfl⟩ := h
  · exact ⟨cellsWf_writeCells vs _ a hcoils, hdi, hhr, hir⟩
  · exact ⟨hcoils, hdi, cellsWf_writeCells vs _ a hhr, hir⟩

theorem Serves.inputs {fc : Byte} {p : Params} {m m' : Memory} {r : Reply} (h : Serves fc p m m' r) :
    m'.di = m.di ∧ m'.ir = m.ir := by
  obtain ⟨-, rfl | ⟨-, -, hstore⟩⟩ := h
  · exact ⟨rfl, rfl⟩
  · exact hstore.inputs

theorem Serves.wf {fc : Byte} {p : Params} {m m' : Memory} {r : Reply} (h : Serves fc p m m' r) (hm : m.wf = true) :
    m'.wf = true := by
  obtain ⟨-, rfl | ⟨-, -, hstore⟩⟩ := h
  · exact hm
  · exact hstore.wf hm

/-! ## Lengths -/

@[simp] theorem pack_length (b : List (BitVec 1)) : (pack b).length = (b.length + 7) / 8 := by
  simp [pack, ceilDiv]

@[simp] theorem regBytes_length (vs : List Word) : (regBytes vs).length = 2 * vs.length := by
  induction vs with
  | nil => rfl
  | cons v vs ih =>
    have hcons : regBytes (v :: vs) = hi8 v :: lo8 v :: regBytes vs := rfl
    simp only [hcons, List.length_cons, ih]
    omega

@[simp] theorem unpack_length (d : List Byte) (q : Nat) : (unpack d q).length = q := by simp [unpack]

@[simp] theorem bytesRegs_length (d : List Byte) (n : Nat) : (bytesRegs d n).length = n := by simp [bytesRegs]

@[simp] theorem countedPayload_length (d : List Byte) : (countedPayload d).length = d.length + 1 := rfl

/-! ## The eight functions and the router -/

theorem serves_exception (fc : Byte) (code : ExcCode) (p : Params) (m : Memory) : Serves fc p m m (excReply fc code) :=
  ⟨by simp [excReply], .inl rfl⟩

/-- A failed check (R228). -/
theorem exists_serves_of_raised {fc : Byte} {run : PduFn} {p : Params} {m : Memory} (code : ExcCode)
    (h : run p m = raiseException fc code m) : ∃ m' r, run p m = .ok (m', r) ∧ Serves fc p m m' r :=
  ⟨m, excReply fc code, h, serves_exception fc code p m⟩

theorem routerFn_unsupportedPdu (fc : Byte) : RouterFn fc (unsupportedPdu fc) :=
  fun _ _ => exists_serves_of_raised .illegalFunction rfl

theorem routerFn_routed {fc : Byte} {body : PduFn} (h : RouterFn fc body) : RouterFn fc (routed fc body) := by
  intro p m
  cases hsup : supported p fc with
  | true =>
    obtain ⟨m', r, hrun, hserves⟩ := h p m
    exact ⟨m', r, (routed_of_supported fc body p m hsup).trans hrun, hserves⟩
  | false => exact ⟨_, _, routed_of_not_supported fc body p m hsup, serves_exception fc .illegalFunction p m⟩

/-- A read whose checks all pass (R240). -/
theorem readBits_of_inRange (fc : Byte) (t : BitTable) (start qty : Word) (p : Params) (m : Memory)
    (hmin : 1 ≤ qty.toNat) (hmax : qty.toNat ≤ 2000) (hrange : start.toNat + qty.toNat ≤ bitSize p t) :
    readBits fc t (.pair start qty) p m =
      .ok (m, ⟨fc, countedPayload (pack (readCells (bitCells m t) start.toNat qty.toNat)), 0#8⟩) := by
  have hqty : ¬(qty.toNat = 0 ∨ 2000 < qty.toNat) := by omega
  simp [readBits, hqty, Nat.not_lt.2 hrange, (memReadBits_ok _ _ _ _ _ _).2 ⟨hrange, rfl⟩]

theorem readRegs_of_inRange (fc : Byte) (t : RegTable) (start qty : Word) (p : Params) (m : Memory)
    (hmin : 1 ≤ qty.toNat) (hmax : qty.toNat ≤ 125) (hrange : start.toNat + qty.toNat ≤ regSize p t) :
    readRegs fc t (.pair start qty) p m =
      .ok (m, ⟨fc, countedPayload (regBytes (readCells (regCells m t) start.toNat qty.toNat)), 0#8⟩) := by
  have hqty : ¬(qty.toNat = 0 ∨ 125 < qty.toNat) := by omega
  simp [readRegs, hqty, Nat.not_lt.2 hrange, (memReadRegs_ok _ _ _ _ _ _).2 ⟨hrange, rfl⟩]

theorem writeSingleCoil_of_inRange (address value : Word) (p : Params) (m : Memory)
    (hvalue : value = coilOn ∨ value = coilOff) (hrange : address.toNat < p.nCoils) :
    writeSingleCoil (.pair address value) p m =
      .ok ({ m with coils := writeCells m.coils address.toNat [if value = coilOn then 1#1 else 0#1] },
        ⟨0x05#8, rangePayload address value, 0#8⟩) := by
  have hlegal : ¬(value ≠ coilOn ∧ value ≠ coilOff) := by tauto
  have hwrite := (memWriteBits_ok p m _ .coils address.toNat [if value = coilOn then 1#1 else 0#1]).2 ⟨hrange, rfl⟩
  simp only [writeSingleCoil, if_neg hlegal, if_neg (Nat.not_le.2 hrange), hwrite]
  rfl

theorem writeSingleRegister_of_inRange (address value : Word) (p : Params) (m : Memory)
    (hrange : address.toNat < p.nHr) :
    writeSingleRegister (.pair address value) p m =
      .ok ({ m with hr := writeCells m.hr address.toNat [value] }, ⟨0x06#8, rangePayload address value, 0#8⟩) := by
  have hwrite := (memWriteRegs_ok p m _ .hr address.toNat [value]).2 ⟨hrange, rfl⟩
  simp only [writeSingleRegister, if_neg (Nat.not_le.2 hrange), hwrite]
  rfl

theorem writeMultipleCoils_of_inRange (start qty : Word) (bc : Byte) (data : List Byte) (p : Params) (m : Memory)
    (hmin : 1 ≤ qty.toNat) (hmax : qty.toNat ≤ 1968) (hbc : bc.toNat = (qty.toNat + 7) / 8)
    (hdata : data.length = bc.toNat) (hrange : start.toNat + qty.toNat ≤ p.nCoils) :
    writeMultipleCoils (.multi start qty bc data) p m =
      .ok ({ m with coils := writeCells m.coils start.toNat (unpack data qty.toNat) },
        ⟨0x0F#8, rangePayload start qty, 0#8⟩) := by
  have hqty : ¬(qty.toNat = 0 ∨ 1968 < qty.toNat) := by omega
  have hcount : ¬(bc.toNat ≠ ceilDiv qty.toNat 8 ∨ data.length ≠ bc.toNat) := by rw [ceilDiv_eight]; omega
  have hlen : start.toNat + (unpack data qty.toNat).length ≤ bitSize p .coils := by rw [unpack_length]; exact hrange
  have hwrite := (memWriteBits_ok p m _ .coils start.toNat (unpack data qty.toNat)).2 ⟨hlen, rfl⟩
  simp only [writeMultipleCoils, if_neg hqty, if_neg hcount, if_neg (Nat.not_lt.2 hrange), hwrite]
  rfl

theorem writeMultipleRegisters_of_inRange (start qty : Word) (bc : Byte) (data : List Byte) (p : Params) (m : Memory)
    (hmin : 1 ≤ qty.toNat) (hmax : qty.toNat ≤ 123) (hbc : bc.toNat = 2 * qty.toNat)
    (hdata : data.length = bc.toNat) (hrange : start.toNat + qty.toNat ≤ p.nHr) :
    writeMultipleRegisters (.multi start qty bc data) p m =
      .ok ({ m with hr := writeCells m.hr start.toNat (bytesRegs data qty.toNat) },
        ⟨0x10#8, rangePayload start qty, 0#8⟩) := by
  have hqty : ¬(qty.toNat = 0 ∨ 123 < qty.toNat) := by omega
  have hcount : ¬(bc.toNat ≠ 2 * qty.toNat ∨ data.length ≠ bc.toNat) := by omega
  have hlen : start.toNat + (bytesRegs data qty.toNat).length ≤ regSize p .hr := by rw [bytesRegs_length]; exact hrange
  have hwrite := (memWriteRegs_ok p m _ .hr start.toNat (bytesRegs data qty.toNat)).2 ⟨hlen, rfl⟩
  simp only [writeMultipleRegisters, if_neg hqty, if_neg hcount, if_neg (Nat.not_lt.2 hrange), hwrite]
  rfl

/-! ## An illegal quantity or value (R225) -/

section
variable (p : Params) (m : Memory) (start qty : Word)

theorem readBits_of_illegalQuantity (fc : Byte) (t : BitTable) (h : qty.toNat = 0 ∨ 2000 < qty.toNat) :
    readBits fc t (.pair start qty) p m = raiseException fc .illegalDataValue m := if_pos h

theorem readRegs_of_illegalQuantity (fc : Byte) (t : RegTable) (h : qty.toNat = 0 ∨ 125 < qty.toNat) :
    readRegs fc t (.pair start qty) p m = raiseException fc .illegalDataValue m := if_pos h

theorem writeSingleCoil_of_illegalValue (h : qty ≠ coilOn ∧ qty ≠ coilOff) :
    writeSingleCoil (.pair start qty) p m = raiseException 0x05#8 .illegalDataValue m := if_pos h

theorem writeMultipleCoils_of_illegalQuantity (bc : Byte) (data : List Byte) (h : qty.toNat = 0 ∨ 1968 < qty.toNat) :
    writeMultipleCoils (.multi start qty bc data) p m = raiseException 0x0F#8 .illegalDataValue m := if_pos h

theorem writeMultipleRegisters_of_illegalQuantity (bc : Byte) (data : List Byte)
    (h : qty.toNat = 0 ∨ 123 < qty.toNat) :
    writeMultipleRegisters (.multi start qty bc data) p m = raiseException 0x10#8 .illegalDataValue m := if_pos h

end

/-! ## Every function serves -/

theorem routerFn_readBits (fc : Byte) (t : BitTable) (q : PairReq) : RouterFn fc (readBits fc t q) := by
  intro p m
  cases q with
  | malformed d => exact exists_serves_of_raised .illegalDataValue rfl
  | pair start qty =>
    by_cases hqty : qty.toNat = 0 ∨ 2000 < qty.toNat
    · exact exists_serves_of_raised _ (readBits_of_illegalQuantity p m start qty fc t hqty)
    · by_cases hrange : start.toNat + qty.toNat ≤ bitSize p t
      · refine ⟨_, _, readBits_of_inRange fc t start qty p m (by omega) (by omega) hrange, ?_, .inl rfl⟩
        simp
        omega
      · exact exists_serves_of_raised _
          (readBits_of_outOfRange p m start qty fc t (by omega) (by omega) (Nat.not_le.1 hrange))

theorem routerFn_readRegs (fc : Byte) (t : RegTable) (q : PairReq) : RouterFn fc (readRegs fc t q) := by
  intro p m
  cases q with
  | malformed d => exact exists_serves_of_raised .illegalDataValue rfl
  | pair start qty =>
    by_cases hqty : qty.toNat = 0 ∨ 125 < qty.toNat
    · exact exists_serves_of_raised _ (readRegs_of_illegalQuantity p m start qty fc t hqty)
    · by_cases hrange : start.toNat + qty.toNat ≤ regSize p t
      · refine ⟨_, _, readRegs_of_inRange fc t start qty p m (by omega) (by omega) hrange, ?_, .inl rfl⟩
        simp
        omega
      · exact exists_serves_of_raised _
          (readRegs_of_outOfRange p m start qty fc t (by omega) (by omega) (Nat.not_le.1 hrange))

theorem routerFn_writeSingleCoil (q : PairReq) : RouterFn 0x05#8 (writeSingleCoil q) := by
  intro p m
  cases q with
  | malformed d => exact exists_serves_of_raised .illegalDataValue rfl
  | pair address value =>
    by_cases hvalue : value = coilOn ∨ value = coilOff
    · by_cases hrange : address.toNat < p.nCoils
      · exact ⟨_, _, writeSingleCoil_of_inRange address value p m hvalue hrange, by simp [rangePayload],
          .inr ⟨by decide, rfl, .inl ⟨_, _, hrange, rfl⟩⟩⟩
      · exact exists_serves_of_raised _ (writeSingleCoil_of_outOfRange p m address value hvalue (Nat.not_lt.1 hrange))
    · exact exists_serves_of_raised _ (writeSingleCoil_of_illegalValue p m address value (not_or.1 hvalue))

theorem routerFn_writeSingleRegister (q : PairReq) : RouterFn 0x06#8 (writeSingleRegister q) := by
  intro p m
  cases q with
  | malformed d => exact exists_serves_of_raised .illegalDataValue rfl
  | pair address value =>
    by_cases hrange : address.toNat < p.nHr
    · exact ⟨_, _, writeSingleRegister_of_inRange address value p m hrange, by simp [rangePayload],
        .inr ⟨by decide, rfl, .inr ⟨_, _, hrange, rfl⟩⟩⟩
    · exact exists_serves_of_raised _ (writeSingleRegister_of_outOfRange p m address value (Nat.not_lt.1 hrange))

theorem routerFn_writeMultipleCoils (q : MultiReq) : RouterFn 0x0F#8 (writeMultipleCoils q) := by
  intro p m
  cases q with
  | short d => exact exists_serves_of_raised .illegalDataValue rfl
  | multi start qty bc data =>
    by_cases hcount : data.length ≠ bc.toNat ∨ bc.toNat ≠ (qty.toNat + 7) / 8
    · exact exists_serves_of_raised _ (writeMultipleCoils_of_wrongCount start qty bc data p m hcount)
    · by_cases hqty : qty.toNat = 0 ∨ 1968 < qty.toNat
      · exact exists_serves_of_raised _ (writeMultipleCoils_of_illegalQuantity p m start qty bc data hqty)
      · by_cases hrange : start.toNat + qty.toNat ≤ p.nCoils
        · exact ⟨_, _, writeMultipleCoils_of_inRange start qty bc data p m (by omega) (by omega) (by omega) (by omega) hrange,
            by simp [rangePayload], .inr ⟨by decide, rfl, .inl ⟨_, _, by simpa using hrange, rfl⟩⟩⟩
        · exact exists_serves_of_raised _ (writeMultipleCoils_of_outOfRange p m start qty bc data (by omega) (by omega)
            (by omega) (by omega) (Nat.not_le.1 hrange))

theorem routerFn_writeMultipleRegisters (q : MultiReq) : RouterFn 0x10#8 (writeMultipleRegisters q) := by
  intro p m
  cases q with
  | short d => exact exists_serves_of_raised .illegalDataValue rfl
  | multi start qty bc data =>
    by_cases hcount : data.length ≠ bc.toNat ∨ bc.toNat ≠ 2 * qty.toNat
    · exact exists_serves_of_raised _ (writeMultipleRegisters_of_wrongCount start qty bc data p m hcount)
    · by_cases hqty : qty.toNat = 0 ∨ 123 < qty.toNat
      · exact exists_serves_of_raised _ (writeMultipleRegisters_of_illegalQuantity p m start qty bc data hqty)
      · by_cases hrange : start.toNat + qty.toNat ≤ p.nHr
        · exact ⟨_, _, writeMultipleRegisters_of_inRange start qty bc data p m (by omega) (by omega) (by omega) (by omega)
            hrange, by simp [rangePayload], .inr ⟨by decide, rfl, .inr ⟨_, _, by simpa using hrange, rfl⟩⟩⟩
        · exact exists_serves_of_raised _ (writeMultipleRegisters_of_outOfRange p m start qty bc data (by omega) (by omega)
            (by omega) (by omega) (Nat.not_le.1 hrange))

/-! ## Frames reach a function of the router -/

/-- A frame instruction gives its frame to the engine of the role, with a function of the router (R193, R220). -/
theorem exec_routerFn (i : Instr) (fr : Frame) (h : frameOf i = some fr) :
    ∃ run, RouterFn fr.fc run ∧ ∀ s, exec i s = acceptFrame fr.addr fr.fc fr.payload run s := by
  cases i with
  | readCoils a q | readDiscreteInputs a q => cases h; exact ⟨_, routerFn_routed (routerFn_readBits _ _ q), fun _ => rfl⟩
  | readHoldingRegisters a q | readInputRegisters a q =>
    cases h; exact ⟨_, routerFn_routed (routerFn_readRegs _ _ q), fun _ => rfl⟩
  | writeSingleCoil a q => cases h; exact ⟨_, routerFn_routed (routerFn_writeSingleCoil q), fun _ => rfl⟩
  | writeSingleRegister a q => cases h; exact ⟨_, routerFn_routed (routerFn_writeSingleRegister q), fun _ => rfl⟩
  | writeMultipleCoils a q => cases h; exact ⟨_, routerFn_routed (routerFn_writeMultipleCoils q), fun _ => rfl⟩
  | writeMultipleRegisters a q => cases h; exact ⟨_, routerFn_routed (routerFn_writeMultipleRegisters q), fun _ => rfl⟩
  | exception a fc7 p => cases h; exact ⟨_, routerFn_routed (routerFn_unsupportedPdu _), fun _ => rfl⟩
  | openCmd | closeCmd | goCmd | dsgoCmd | crcInit | crcDataWrite _ | evtClear _ => cases h

/-- The end of a decodable frame, with or without a row in the map, gives it to the engine of the role (R119, R193). -/
theorem frameEnd_routerFn (s : State) (fr : Frame)
    (h : decodeFrame s.rx.overrun s.rx.charErr s.rx.gap (rxFrame s) = .ok fr) :
    ∃ run, RouterFn fr.fc run ∧
      frameEnd s = acceptFrame fr.addr fr.fc fr.payload run (setRxState .idle s) := by
  cases hp : decodePdu fr.addr fr.fc fr.payload with
  | error r => exact ⟨_, routerFn_routed (routerFn_unsupportedPdu fr.fc), by simp [frameEnd, h, hp]⟩
  | ok i =>
    obtain ⟨run, hfn, hrun⟩ := exec_routerFn i fr (frameOf_of_decodePdu _ _ _ i hp)
    exact ⟨run, hfn, by simp [frameEnd, h, hp, hrun]⟩

/-- The server drops a frame that fails its tests (R193, R331). -/
theorem frameEnd_of_frameError_server (s : State) (k : FrameError) (hrole : s.cfg.role = .server)
    (h : decodeFrame s.rx.overrun s.rx.charErr s.rx.gap (rxFrame s) = .error k) :
    frameEnd s = .next (serverFrameError k (setRxState .idle s)) := by
  simp only [frameEnd, h, hrole]

/-- To the client a frame that fails its tests is a failure of the exchange (R193, R301). -/
theorem frameEnd_of_frameError_client (s : State) (k : FrameError) (hrole : s.cfg.role = .client)
    (h : decodeFrame s.rx.overrun s.rx.charErr s.rx.gap (rxFrame s) = .error k) :
    frameEnd s = .next (crcError k (setRxState .idle s)) := by
  simp only [frameEnd, h, hrole]

end Sys2Proof.Machine
end

section
/-! PROOFS. The server's requests (44_pdu_reads.md, 45_pdu_writes.md, 47_server_fsm.md): a request whose checks pass is answered and
stored, one that fails a check is refused, and a frame for somebody else is discarded. -/

namespace Sys2Proof.Machine

/-! ## Packed values -/

/-- The bits of a byte put together from eight bits, the last one in bit 0 (R104). -/
theorem getLsbD_append_eight (x0 x1 x2 x3 x4 x5 x6 x7 : BitVec 1) (j : Nat) (hj : j < 8) :
    (x7 ++ x6 ++ x5 ++ x4 ++ x3 ++ x2 ++ x1 ++ x0).getLsbD j =
      ([x0, x1, x2, x3, x4, x5, x6, x7].getD j 0#1).getLsbD 0 := by
  simp only [BitVec.getLsbD_append]
  interval_cases j <;> simp

/-- Bit `j` of a packed byte (R104). -/
theorem packByte_extractLsb' (b : List (BitVec 1)) (i j : Nat) (hj : j < 8) :
    (packByte b i).extractLsb' j 1 = bitAt b (8 * i + j) := by
  refine BitVec.eq_of_getLsbD_eq fun k hk => ?_
  obtain rfl : k = 0 := by omega
  have hbit := getLsbD_append_eight (bitAt b (8 * i)) (bitAt b (8 * i + 1)) (bitAt b (8 * i + 2)) (bitAt b (8 * i + 3))
    (bitAt b (8 * i + 4)) (bitAt b (8 * i + 5)) (bitAt b (8 * i + 6)) (bitAt b (8 * i + 7)) j hj
  rw [BitVec.getLsbD_extractLsb', Nat.add_zero, packByte, hbit]
  interval_cases j <;> rfl

theorem bitAt_of_ge (b : List (BitVec 1)) (k : Nat) (h : b.length ≤ k) : bitAt b k = 0#1 := by
  simp [bitAt, List.getD_eq_getElem?_getD, h]

/-- Bit `k` of a packed sequence (R104). -/
theorem pack_bit (b : List (BitVec 1)) (k : Nat) (h : k < 8 * (pack b).length) :
    ((pack b).getD (k / 8) 0#8).extractLsb' (k % 8) 1 = bitAt b k := by
  have hbyte : k / 8 < ceilDiv b.length 8 := by
    rw [pack_length] at h
    rw [ceilDiv_eight]
    omega
  have hget : (pack b).getD (k / 8) 0#8 = packByte b (k / 8) := by
    simp [pack, List.getD_eq_getElem?_getD, List.getElem?_range hbyte]
  rw [hget, packByte_extractLsb' b _ _ (Nat.mod_lt k (by omega)), Nat.div_add_mod]

/-- A packed range of bits (R104). -/
theorem bitsPacked_pack (q : Nat) (f : Nat → BitVec 1) : BitsPacked (pack ((List.range q).map f)) q f := by
  refine ⟨by simp, fun k hk => ?_, fun k hk hlen => ?_⟩
  · rw [pack_bit _ k (by simp; omega)]
    simp [bitAt, List.getD_eq_getElem?_getD, List.getElem?_range hk]
  · rw [pack_bit _ k hlen]
    exact bitAt_of_ge _ k (by simpa using hk)

/-- The two bytes of value `i` of a sequence of registers, high byte first (R64, R101). -/
theorem regBytes_getD (vs : List Word) (i : Nat) (h : i < vs.length) :
    (regBytes vs).getD (2 * i) 0#8 = hi8 (vs.getD i 0#16) ∧ (regBytes vs).getD (2 * i + 1) 0#8 = lo8 (vs.getD i 0#16) := by
  induction vs generalizing i with
  | nil => simp at h
  | cons v vs ih =>
    have hcons : regBytes (v :: vs) = hi8 v :: lo8 v :: regBytes vs := rfl
    cases i with
    | zero => exact ⟨rfl, rfl⟩
    | succ i =>
      have := ih i (by simpa using h)
      rw [hcons, show 2 * (i + 1) = 2 * i + 1 + 1 by omega]
      simpa using this

theorem regsPacked_regBytes (c : Cells 16) (a n : Nat) :
    RegsPacked (regBytes (readCells c a n)) n fun i => readCell c (a + i) := by
  refine ⟨by simp, fun i hi => ?_⟩
  have := regBytes_getD (readCells c a n) i (by simpa using hi)
  rwa [readCells_getD c a n i 0#16 hi] at this

theorem unpack_getD (d : List Byte) (q k : Nat) (h : k < q) :
    (unpack d q).getD k 0#1 = (d.getD (k / 8) 0#8).extractLsb' (k % 8) 1 := by
  simp [unpack, List.getD_eq_getElem?_getD, List.getElem?_range h]

theorem bytesRegs_getD (d : List Byte) (n i : Nat) (h : i < n) :
    (bytesRegs d n).getD i 0#16 = be16 (d.getD (2 * i) 0#8) (d.getD (2 * i + 1) 0#8) := by
  simp [bytesRegs, List.getD_eq_getElem?_getD, List.getElem?_range h]

/-! ## A stored range -/

theorem onlyCoils_writeCells (m : Memory) (a : Nat) (vs : List (BitVec 1)) :
    OnlyCoils a vs.length m { m with coils := writeCells m.coils a vs } :=
  ⟨rfl, rfl, rfl, fun k hk => readCell_writeCells_outside vs m.coils a k hk⟩

theorem onlyHolding_writeCells (m : Memory) (a : Nat) (vs : List Word) :
    OnlyHolding a vs.length m { m with hr := writeCells m.hr a vs } :=
  ⟨rfl, rfl, rfl, fun k hk => readCell_writeCells_outside vs m.hr a k hk⟩

/-! ## Requests to this unit -/

/-- A request of a supported function whose checks pass is answered with the function's reply (R223, R333). -/
theorem exec_answered (i : Instr) {addr fc : Byte} {pl : List Byte} {body : PduFn} {s : State} {m : Memory} {rp : List Byte}
    (hcanon : Canonical s) (hserving : Serving addr s) (hsup : supported s.inst fc = true)
    (hexec : exec i s = acceptFrame addr fc pl (routed fc body) s) (hbody : body s.inst s.mem = .ok (m, ⟨fc, rp, 0#8⟩))
    (hlen : rp.length ≤ maxPayload) : ∃ t, exec i s = .next t ∧ Answered fc fc rp 0#8 s t ∧ t.mem = m := by
  obtain ⟨-, -, -, -, hbuf⟩ := hcanon
  have hrun := addressed_of_ok fc (routed fc body) { s with sstate := .dispatch } m ⟨fc, rp, 0#8⟩
    ((routed_of_supported fc body s.inst s.mem hsup).trans hbody)
  refine ⟨_, (hexec.trans (acceptFrame_of_serving addr fc pl _ s hserving)).trans hrun, ?_, rfl⟩
  exact answered_sendResponse fc fc 0#8 rp { s with mem := m, sstate := .dispatch } hbuf hlen

/-! ## Frames that are not for this unit -/

/-- A frame that meets a closed block or a receiver that is off is lost (log 6). -/
theorem acceptFrame_of_not_listening (addr fc : Byte) (p : List Byte) (run : PduFn) (s : State)
    (h : s.isOpen = false ∨ s.rx.en = false) : acceptFrame addr fc p run s = .next s :=
  if_neg (by simpa [State.listening] using h.resolve_left)

/-- A server discards a frame for another unit, and a broadcast of no supported write (R334, R335). -/
theorem acceptFrame_of_discarded (addr fc : Byte) (p : List Byte) (run : PduFn) (s : State) (hopen : s.isOpen = true)
    (hen : s.rx.en = true) (hrole : s.cfg.role = .server) (haddr : addr ≠ s.cfg.unit)
    (h : addr ≠ 0#8 ∨ s.cfg.bcastEn = false ∨ (isWriteFc fc && supported s.inst fc) = false) :
    acceptFrame addr fc p run s = .next { s with sstate := .listen } := by
  have hserver : acceptFrame addr fc p run s = serverFrame addr fc run s := by
    simp [acceptFrame, State.listening, hopen, hen, hrole]
  rw [hserver, serverFrame, if_neg haddr]
  by_cases hbcast : addr = 0#8 ∧ s.cfg.bcastEn = true
  · have hnone : (isWriteFc fc && supported s.inst fc) = false := by
      obtain ⟨rfl, hen⟩ := hbcast
      simpa [hen] using h
    rw [if_pos hbcast, broadcast, if_neg (by simpa using hnone)]
  · rw [if_neg hbcast]

/-- A function code outside the supported writes (R221, R335). -/
theorem isWriteFc_and_supported_eq_false (p : Params) (fc : Byte) (hbase : fc ∉ [0x05#8, 0x06#8])
    (hext : p.extFc = false ∨ fc ∉ [0x0F#8, 0x10#8]) : (isWriteFc fc && supported p fc) = false := by
  simp only [List.mem_cons, List.not_mem_nil, or_false, not_or] at hbase hext
  by_cases hlong : fc = 0x0F#8 ∨ fc = 0x10#8
  · have hno : p.extFc = false := hext.resolve_right fun h => by tauto
    obtain rfl | rfl := hlong <;> simp [supported, hno]
  · simp only [not_or] at hlong
    simp [isWriteFc, hbase, hlong]

/-- A function code with bit 7 set is none that the router supports (R120, R221). -/
theorem supported_highFc (p : Params) (fc7 : BitVec 7) : supported p (highFc fc7) = false := by
  have hbase : ∀ fc7, highFc fc7 ∉ [0x01#8, 0x03#8, 0x05#8, 0x06#8] := by decide
  have hext : ∀ fc7, highFc fc7 ∉ [0x02#8, 0x04#8, 0x0F#8, 0x10#8] := by decide
  exact supported_eq_false p _ (hbase fc7) (.inr (hext fc7))

theorem isWriteFc_highFc (fc7 : BitVec 7) : isWriteFc (highFc fc7) = false := by
  revert fc7
  decide

/-! ## The Data Store -/

/-- What a frame does to the Data Store, whatever its function (R227, R266, R410). -/
theorem acceptFrame_mem {addr fc : Byte} {p : List Byte} {run : PduFn} {s t : State} (hfn : RouterFn fc run)
    (h : acceptFrame addr fc p run s = .next t) :
    t.mem = s.mem ∨ (s.cfg.role = .server ∧ isWriteFc fc = true ∧ t.regs.srv.lastExc = 0#8 ∧ t.regs.srv.lastFc = fc ∧
      StoresRange s.inst s.mem t.mem) := by
  obtain ⟨-, rfl⟩ | ⟨-, hrole, hserver⟩ | ⟨-, -, rfl⟩ := acceptFrame_next addr fc p run s t h
  · exact .inl rfl
  · obtain ⟨-, hrun⟩ | ⟨-, -, -, hrun⟩ | ⟨-, -, rfl⟩ := serverFrame_next addr fc run s t hserver
    · obtain ⟨m, r, hok, rfl⟩ := addressed_next fc run _ t hrun
      obtain ⟨-, hsame | ⟨hfc, hexc, hstore⟩⟩ := hfn.serves hok
      · exact .inl hsame
      · exact .inr ⟨hrole, hfc, hexc, rfl, hstore⟩
    · obtain ⟨-, -, m, r, hok, rfl⟩ | ⟨-, rfl⟩ := broadcast_next fc run _ t hrun
      · obtain ⟨-, hsame | ⟨hfc, hexc, hstore⟩⟩ := hfn.serves hok
        · exact .inl hsame
        · exact .inr ⟨hrole, hfc, hexc, rfl, hstore⟩
      · exact .inl rfl
    · exact .inl rfl
  · exact .inl (clientFrame_mem s _)

end Sys2Proof.Machine

open Sys2Proof Sys2Proof.Machine

/-- Settles O9: the checks pass, the reply holds the packed range, and it fits a frame. -/
theorem bitReadsAnswerTheRange : Obligations.BitReadsAnswerTheRange := by
  intro s addr start qty hcanon hserving hmin hmax
  have hfits : ∀ c : Cells 1, (countedPayload (pack (readCells c start.toNat qty.toNat))).length ≤ maxPayload := by
    intro c
    simp [maxPayload]
    omega
  refine ⟨fun hrange => ?_, fun hext hrange => ?_⟩
  · obtain ⟨t, hexec, hans, hmem⟩ := exec_answered (.readCoils addr (.pair start qty))
      hcanon hserving (supported_of_base _ 0x01#8 (by decide)) rfl
      (readBits_of_inRange 0x01#8 .coils start qty s.inst s.mem hmin hmax hrange) (hfits _)
    exact ⟨t, _, hexec, bitsPacked_pack _ _, hans, hmem⟩
  · obtain ⟨t, hexec, hans, hmem⟩ := exec_answered (.readDiscreteInputs addr (.pair start qty))
      hcanon hserving (supported_of_ext _ 0x02#8 hext (by decide)) rfl
      (readBits_of_inRange 0x02#8 .di start qty s.inst s.mem hmin hmax hrange) (hfits _)
    exact ⟨t, _, hexec, bitsPacked_pack _ _, hans, hmem⟩

/-- Settles O10: as for the bit reads, with two bytes a register. -/
theorem registerReadsAnswerTheRange : Obligations.RegisterReadsAnswerTheRange := by
  intro s addr start qty hcanon hserving hmin hmax
  have hfits : ∀ c : Cells 16, (countedPayload (regBytes (readCells c start.toNat qty.toNat))).length ≤ maxPayload := by
    intro c
    simp [maxPayload]
    omega
  refine ⟨fun hrange => ?_, fun hext hrange => ?_⟩
  · obtain ⟨t, hexec, hans, hmem⟩ := exec_answered (.readHoldingRegisters addr (.pair start qty))
      hcanon hserving (supported_of_base _ 0x03#8 (by decide)) rfl
      (readRegs_of_inRange 0x03#8 .hr start qty s.inst s.mem hmin hmax hrange) (hfits _)
    exact ⟨t, _, hexec, regsPacked_regBytes s.mem.hr _ _, hans, hmem⟩
  · obtain ⟨t, hexec, hans, hmem⟩ := exec_answered (.readInputRegisters addr (.pair start qty))
      hcanon hserving (supported_of_ext _ 0x04#8 hext (by decide)) rfl
      (readRegs_of_inRange 0x04#8 .ir start qty s.inst s.mem hmin hmax hrange) (hfits _)
    exact ⟨t, _, hexec, regsPacked_regBytes s.mem.ir _ _, hans, hmem⟩

/-- Settles O11: the checks pass and the range stored is the one coil. -/
theorem singleCoilWriteStores : Obligations.SingleCoilWriteStores := by
  intro s addr address value hcanon hserving hvalue hrange
  obtain ⟨t, hexec, hans, hmem⟩ := exec_answered (.writeSingleCoil addr (.pair address value))
    hcanon hserving (supported_of_base _ 0x05#8 (by decide)) rfl
    (writeSingleCoil_of_inRange address value s.inst s.mem hvalue hrange) (by simp [rangePayload, maxPayload])
  obtain ⟨hwf, -⟩ := hcanon
  refine ⟨t, hexec, hans, ?_, ?_⟩ <;> rw [hmem]
  · exact onlyCoils_writeCells s.mem address.toNat [_]
  · exact readCell_writeCell_same s.mem.coils address.toNat _ (bitCells_wf s.mem .coils hwf)

/-- Settles O12: the range check passes and the range stored is the one register. -/
theorem singleRegisterWriteStores : Obligations.SingleRegisterWriteStores := by
  intro s addr address value hcanon hserving hrange
  obtain ⟨t, hexec, hans, hmem⟩ := exec_answered (.writeSingleRegister addr (.pair address value))
    hcanon hserving (supported_of_base _ 0x06#8 (by decide)) rfl
    (writeSingleRegister_of_inRange address value s.inst s.mem hrange) (by simp [rangePayload, maxPayload])
  obtain ⟨hwf, -⟩ := hcanon
  refine ⟨t, hexec, hans, ?_, ?_⟩ <;> rw [hmem]
  · exact onlyHolding_writeCells s.mem address.toNat [value]
  · exact readCell_writeCell_same s.mem.hr address.toNat _ (regCells_wf s.mem .hr hwf)

/-- Settles O13: the checks pass and the unpacked bits are stored, one after another. -/
theorem multipleCoilWriteStores : Obligations.MultipleCoilWriteStores := by
  intro s addr start qty bc data hcanon hserving hext hmin hmax hbc hdata hrange
  obtain ⟨t, hexec, hans, hmem⟩ := exec_answered (.writeMultipleCoils addr (.multi start qty bc data))
    hcanon hserving (supported_of_ext _ 0x0F#8 hext (by decide)) rfl
    (writeMultipleCoils_of_inRange start qty bc data s.inst s.mem hmin hmax hbc hdata hrange)
    (by simp [rangePayload, maxPayload])
  obtain ⟨hwf, -⟩ := hcanon
  refine ⟨t, hexec, hans, ?_, fun k hk => ?_⟩ <;> rw [hmem]
  · simpa using onlyCoils_writeCells s.mem start.toNat (unpack data qty.toNat)
  · exact (readCell_writeCells_inside _ s.mem.coils _ k (bitCells_wf s.mem .coils hwf) (by simpa using hk)).trans
      (unpack_getD data _ k hk)

/-- Settles O14: the checks pass and the register values are stored, one after another. -/
theorem multipleRegisterWriteStores : Obligations.MultipleRegisterWriteStores := by
  intro s addr start qty bc data hcanon hserving hext hmin hmax hbc hdata hrange
  obtain ⟨t, hexec, hans, hmem⟩ := exec_answered (.writeMultipleRegisters addr (.multi start qty bc data))
    hcanon hserving (supported_of_ext _ 0x10#8 hext (by decide)) rfl
    (writeMultipleRegisters_of_inRange start qty bc data s.inst s.mem hmin hmax hbc hdata hrange)
    (by simp [rangePayload, maxPayload])
  obtain ⟨hwf, -⟩ := hcanon
  refine ⟨t, hexec, hans, ?_, fun k hk => ?_⟩ <;> rw [hmem]
  · simpa using onlyHolding_writeCells s.mem start.toNat (bytesRegs data qty.toNat)
  · exact (readCell_writeCells_inside _ s.mem.hr _ k (regCells_wf s.mem .hr hwf) (by simpa using hk)).trans
      (bytesRegs_getD data _ k hk)

/-- Settles O16: the check of the quantity or value fails before the range is looked at. -/
theorem illegalValuesAreRefused : Obligations.IllegalValuesAreRefused := by
  intro s addr start qty bc data hcanon hserving
  refine ⟨fun h => ?_, fun h => ?_, fun hon hoff => ?_, fun hext => ⟨fun h => ?_, fun h => ?_, fun h => ?_, fun h => ?_⟩⟩
  · exact readCoils_raises .illegalDataValue hcanon hserving (readBits_of_illegalQuantity _ _ _ _ _ _ h)
  · exact readHoldingRegisters_raises .illegalDataValue hcanon hserving (readRegs_of_illegalQuantity _ _ _ _ _ _ h)
  · exact writeSingleCoil_raises .illegalDataValue hcanon hserving (writeSingleCoil_of_illegalValue _ _ _ _ ⟨hon, hoff⟩)
  · exact readDiscreteInputs_raises .illegalDataValue hcanon hserving hext (readBits_of_illegalQuantity _ _ _ _ _ _ h)
  · exact readInputRegisters_raises .illegalDataValue hcanon hserving hext (readRegs_of_illegalQuantity _ _ _ _ _ _ h)
  · exact writeMultipleCoils_raises .illegalDataValue hcanon hserving hext
      (writeMultipleCoils_of_illegalQuantity _ _ _ _ _ _ h)
  · exact writeMultipleRegisters_raises .illegalDataValue hcanon hserving hext
      (writeMultipleRegisters_of_illegalQuantity _ _ _ _ _ _ h)

/-- Settles O18: the router's first check fails. -/
theorem unsupportedIsIllegalFunction : Obligations.UnsupportedIsIllegalFunction := by
  intro s addr fc7 p q r hcanon hserving
  obtain ⟨-, -, -, -, hbuf⟩ := hcanon
  have hraises : ∀ (i : Instr) (fc : Byte) (pl : List Byte) (body : PduFn),
      exec i s = acceptFrame addr fc pl (routed fc body) s → supported s.inst fc = false → Raises i fc 0x01#8 s := by
    intro i fc pl body hexec hsup
    unfold Raises
    rw [hexec, acceptFrame_of_serving addr fc pl _ s hserving]
    exact addressed_of_not_supported fc body { s with sstate := .dispatch } hbuf hsup
  refine ⟨hraises _ _ _ _ rfl (supported_highFc _ fc7), fun hext => ⟨?_, ?_, ?_, ?_⟩⟩
  all_goals exact hraises _ _ _ _ rfl (supported_eq_false _ _ (by decide) (.inl hext))

/-- Settles O20: whichever engine takes the frame, the server's address filter or the check of a broadcast turns it away, and the
client, idle, does nothing on the tick. -/
theorem otherFramesAreDiscarded : Obligations.OtherFramesAreDiscarded := by
  refine ⟨fun i fr s hfr hopen hen hrole haddr h => ?_, fun s q r fc7 p hserving i hi => ?_,
    fun s rest fr hrst hin htx hserving hclient hrx hsil hdec haddr h => ?_⟩
  · obtain ⟨body, hexec⟩ := exec_of_frameOf i fr hfr
    rw [hexec, acceptFrame_of_discarded _ _ _ _ s hopen hen hrole haddr (h.imp_right .inl)]
  · obtain ⟨hopen, hen, hrole, hunit, -⟩ := hserving
    have hdiscard : ∀ (i : Instr) (fc : Byte) (pl : List Byte), frameOf i = some ⟨0#8, fc, pl⟩ →
        (isWriteFc fc && supported s.inst fc) = false → exec i s = .next { s with sstate := .listen } := by
      intro i fc pl hfr hfc
      obtain ⟨body, hexec⟩ := exec_of_frameOf i _ hfr
      rw [hexec, acceptFrame_of_discarded _ _ _ _ s hopen hen hrole (Ne.symm hunit) (.inr (.inr hfc))]
    rw [List.mem_append] at hi
    obtain hi | hi := hi
    · simp only [List.mem_cons, List.not_mem_nil, or_false] at hi
      obtain rfl | rfl | rfl | rfl | rfl := hi
      · exact hdiscard _ _ _ rfl rfl
      · exact hdiscard _ _ _ rfl rfl
      · exact hdiscard _ _ _ rfl rfl
      · exact hdiscard _ _ _ rfl rfl
      · exact hdiscard _ _ _ rfl (by rw [isWriteFc_highFc, Bool.false_and])
    · cases hext : s.inst.extFc with
      | true => simp [hext] at hi
      | false =>
        simp only [hext, Bool.false_eq_true, if_false, List.mem_cons, List.not_mem_nil, or_false] at hi
        obtain rfl | rfl := hi
        · exact hdiscard _ _ _ rfl (isWriteFc_and_supported_eq_false _ _ (by decide) (.inl hext))
        · exact hdiscard _ _ _ rfl (isWriteFc_and_supported_eq_false _ _ (by decide) (.inl hext))
  · obtain ⟨hopen, hen, hrole, -⟩ := hserving
    obtain ⟨body, hend⟩ := frameEnd_of_decoded (s.ticked rest) fr hdec
    have hfilter : fr.addr ≠ 0#8 ∨ s.cfg.bcastEn = false ∨ (isWriteFc fr.fc && supported s.inst fr.fc) = false :=
      h.imp_right (Or.imp_right fun hfc => isWriteFc_and_supported_eq_false _ _ hfc.1 hfc.2)
    have hdrop := acceptFrame_of_discarded fr.addr fr.fc fr.payload (routed fr.fc body) (setRxState .idle (s.ticked rest))
      hopen hen hrole haddr hfilter
    refine ⟨silNext s.sil, silNext_toNat s.sil, ?_⟩
    rw [step_frameEnd s rest hrst hin hopen htx (by simp [hclient]) hen hrx hsil, hend, hdrop, andThen_of_next]
    exact congrArg _ (clientTick_of_idle _ hclient)

/-- Settles O21: a frame reaches a function of the router, and only one that stores a range changes the Data Store. -/
theorem onlySuccessfulWritesChangeTables : Obligations.OnlySuccessfulWritesChangeTables := by
  intro i fr s t hfr hexec hmem
  obtain ⟨run, hfn, hrun⟩ := exec_routerFn i fr hfr
  obtain hsame | ⟨hrole, hfc, hexc, hlast, hstore⟩ := acceptFrame_mem hfn ((hrun s).symm.trans hexec)
  · exact absurd hsame hmem
  · exact ⟨hrole, hexc, hlast, by simpa [isWriteFc] using hfc, hstore.inputs.1, hstore.inputs.2⟩

/-- Settles O22: every frame instruction hands its frame to an engine only while the receiver listens. -/
theorem framesNeedTheReceiver : Obligations.FramesNeedTheReceiver := by
  intro i fr s hfr h
  obtain ⟨body, hexec⟩ := exec_of_frameOf i fr hfr
  rw [hexec, acceptFrame_of_not_listening _ _ _ _ s h]

end

section
/-! PROOFS. The host's instructions (41_uart.md R151, R160 to R163, 46_client_fsm.md R295 to R298, 48_host_interface.md R363 to R370): when
`OPEN`, `GO` and `DSGO` are taken, and what each makes of the state. -/

namespace Sys2Proof.Machine

/-! ## `OPEN` -/

theorem modeRole_eq_client (mode : BitVec 2) : modeRole mode = .client ↔ mode.getLsbD 0 = false := by
  unfold modeRole
  split <;> simp_all

theorem modeRole_eq_server (mode : BitVec 2) : modeRole mode = .server ↔ mode.getLsbD 0 = true := by
  unfold modeRole
  split <;> simp_all

/-- `cfg_legal` is the list of its conditions (R151). -/
theorem cfgLegal_iff (r : Regs) : cfgLegal r = true ↔ OpenLegal r := by
  have hunit : (modeRole r.mode = .client ∨ r.unit ≠ 0#8) ↔ (r.mode.getLsbD 0 = true → r.unit ≠ 0#8) := by
    rw [modeRole_eq_client, Bool.eq_false_iff, imp_iff_not_or]
  have htmo : (modeRole r.mode = .server ∨ r.timeoutMs ≠ 0#16) ↔ (r.mode.getLsbD 0 = false → r.timeoutMs ≠ 0#16) := by
    rw [modeRole_eq_server, ← Bool.not_eq_false, imp_iff_not_or]
  unfold cfgLegal
  simp only [Bool.and_eq_true, Bool.or_eq_true, decide_eq_true_eq, hunit, htmo, and_assoc]
  rfl

/-- The character lengths a format can have (R160, R164). -/
theorem charTicks_eq (parity : BitVec 2) (stop2 : Bool) :
    charTicks parity stop2 = 10 + (if parity = 0#2 then 0 else 1) + if stop2 then 1 else 0 := by
  unfold charTicks
  split <;> split <;> rfl

theorem charTicks_bounds (parity : BitVec 2) (stop2 : Bool) : 10 ≤ charTicks parity stop2 ∧ charTicks parity stop2 ≤ 12 := by
  rw [charTicks_eq]
  split <;> split <;> omega

/-- The response timeout fits its 32 bits (R163). -/
theorem tmoOf_le (ms : BitVec 16) (baud : BitVec 24) : tmoOf ms.toNat baud.toNat ≤ 1099494786 := by
  have hms : ms.toNat ≤ 65535 := Nat.le_of_lt_succ ms.isLt
  have hbaud : baud.toNat ≤ 16777215 := Nat.le_of_lt_succ baud.isLt
  have hmul : ms.toNat * baud.toNat ≤ 65535 * 16777215 := Nat.mul_le_mul hms hbaud
  unfold tmoOf
  omega

/-- The derived values of a session, in the naturals (R160 to R163). -/
theorem latchedCfg_toNat (r : Regs) :
    (latchedCfg r).cb.toNat = lineTicks r.line ∧ (latchedCfg r).t15.toNat = t15Of (lineTicks r.line) ∧
    (latchedCfg r).t35.toNat = t35Of r.ift.toNat (lineTicks r.line) ∧
    (latchedCfg r).tmo.toNat = tmoOf r.timeoutMs.toNat r.baud.toNat := by
  obtain ⟨-, hmax⟩ : 10 ≤ lineTicks r.line ∧ lineTicks r.line ≤ 12 := charTicks_bounds _ _
  have hift := r.ift.isLt
  have htmo := tmoOf_le r.timeoutMs r.baud
  refine ⟨Nat.mod_eq_of_lt (by omega), Nat.mod_eq_of_lt (by unfold t15Of; omega), Nat.mod_eq_of_lt ?_,
    Nat.mod_eq_of_lt (by omega)⟩
  unfold t35Of
  split <;> omega

theorem execOpen_of_open (s : State) (h : s.isOpen = true) : execOpen s = .next (State.setEvt evtCmdrej s) := if_pos h

theorem execOpen_of_legal (s : State) (hclosed : s.isOpen = false) (hlegal : OpenLegal s.regs) :
    execOpen s = .next (opened s) := by
  simp only [execOpen, hclosed, (cfgLegal_iff s.regs).2 hlegal, if_true, Bool.false_eq_true, if_false]

theorem execOpen_of_illegal (s : State) (hclosed : s.isOpen = false) (hlegal : ¬OpenLegal s.regs) :
    execOpen s = .next (transportError .badConfig s) := by
  have hcfg : cfgLegal s.regs = false := by rwa [← Bool.not_eq_true, cfgLegal_iff]
  simp only [execOpen, hclosed, hcfg, Bool.false_eq_true, if_false]

theorem sessionRx_of_server (s : State) (hrole : s.cfg.role = .server) : sessionRx s = rxArm .init s := by
  simp only [sessionRx, hrole]

theorem sessionRx_of_client (s : State) (hrole : s.cfg.role = .client) :
    sessionRx s = { s with rx := { s.rx with en := false, state := .init, len := 0#9 } } := by
  simp only [sessionRx, hrole]

/-! ## `GO` -/

/-- `req_valid` is the list of its conditions (R295). -/
theorem reqValid_iff (p : Params) (q : Request) : reqValid p q = true ↔ RequestLegal p q := by
  obtain ⟨unit, fc, start, arg⟩ := q
  by_cases hfc : fc ∈ [0x01#8, 0x02#8, 0x03#8, 0x04#8, 0x05#8, 0x06#8, 0x0F#8, 0x10#8]
  · simp only [List.mem_cons, List.not_mem_nil, or_false] at hfc
    obtain rfl | rfl | rfl | rfl | rfl | rfl | rfl | rfl := hfc <;>
      simp [reqValid, RequestLegal, supported, isWriteFc, and_assoc, imp_false]
  · have hsup : supported p fc = false := by
      simp only [List.mem_cons, List.not_mem_nil, or_false, not_or] at hfc
      simp [supported, hfc]
    simp only [List.mem_cons, List.not_mem_nil, or_false, not_or] at hfc
    simp [reqValid, RequestLegal, hsup, hfc]

/-- The payload of a legal request, row by row (R297). -/
theorem buildRequest_payload (win : Cells 16) (q : Request) : RequestPayload win q (buildRequest win q) := by
  refine ⟨fun h => ?_, fun h => ?_, fun h => ?_, fun h => ?_⟩
  · have hfc : q.fc ≠ 0x05#8 ∧ q.fc ≠ 0x0F#8 ∧ q.fc ≠ 0x10#8 := by
      obtain h | h | h | h | h := h <;> simp [h]
    obtain ⟨h5, hF, h10⟩ := hfc
    rw [buildRequest, if_neg h5, if_neg hF, if_neg h10]
    rfl
  · rw [buildRequest, if_pos h]
    split <;> simp
  · refine ⟨pack (windowBits win q.arg.toNat), ?_, ?_⟩
    · rw [buildRequest, if_neg (by simp [h]), if_pos h]
      rfl
    · exact bitsPacked_pack q.arg.toNat _
  · refine ⟨regBytes (readCells win 0 q.arg.toNat), ?_, ?_⟩
    · rw [buildRequest, if_neg (by simp [h]), if_neg (by simp [h]), if_pos h]
      rfl
    · simpa using regsPacked_regBytes win 0 q.arg.toNat

/-- The request of a legal exchange fits a frame with room to spare (R91, R295). -/
theorem buildRequest_length (p : Params) (win : Cells 16) (q : Request) (h : RequestLegal p q) :
    (buildRequest win q).length ≤ 251 := by
  obtain ⟨-, -, -, -, -, hcoils, hregs⟩ := h
  unfold buildRequest
  split
  · split <;> simp
  · split
    · rename_i hfc
      have := hcoils hfc
      simp [rangePayload, windowBits]
      omega
    · split
      · rename_i hfc
        have := hregs hfc
        simp [rangePayload]
        omega
      · simp [rangePayload]

theorem execGo_of_closed (s : State) (h : s.isOpen = false) :
    execGo s = .next (transportError .notOpen (finish ⟨.transportError, none, 0#8, 0#8⟩ s)) := if_pos h

theorem execGo_of_busy (s : State) (hopen : s.isOpen = true) (h : s.cfg.role = .server ∨ s.client.state ≠ .idle) :
    execGo s = .next (State.setEvt evtCmdrej s) := by
  simp only [execGo, hopen, if_pos h, Bool.true_eq_false, if_false]

theorem execGo_of_legal (s : State) (hopen : s.isOpen = true) (hrole : s.cfg.role = .client)
    (hidle : s.client.state = .idle) (hlegal : RequestLegal s.inst (hostRequest s.regs)) :
    execGo s = .next (startExchange (hostRequest s.regs) s) := by
  have hfree : ¬(s.cfg.role = .server ∨ s.client.state ≠ .idle) := by simp [hrole, hidle]
  simp only [execGo, hopen, if_neg hfree, (reqValid_iff _ _).2 hlegal, if_true, Bool.true_eq_false, if_false]

theorem execGo_of_illegal (s : State) (hopen : s.isOpen = true) (hrole : s.cfg.role = .client)
    (hidle : s.client.state = .idle) (hlegal : ¬RequestLegal s.inst (hostRequest s.regs)) :
    execGo s = .next (State.setEvt evtCmdrej (finish ⟨.rejected, none, 0#8, 0#8⟩ s)) := by
  have hfree : ¬(s.cfg.role = .server ∨ s.client.state ≠ .idle) := by simp [hrole, hidle]
  have hreq : reqValid s.inst (hostRequest s.regs) = false := by rwa [← Bool.not_eq_true, reqValid_iff]
  simp only [execGo, hopen, if_neg hfree, hreq, Bool.false_eq_true, Bool.true_eq_false, if_false]

/-- The state in which an accepted `GO` leaves the client, before the test of the line's silence (R296). -/
def requestLoaded (q : Request) (s : State) : State :=
  { loadTx (encodeFrame q.unit q.fc (buildRequest s.regs.win q)) s with
    client := { s.client with state := .sending, rq := q, retryBound := s.regs.retry, retryLeft := s.regs.retry }
    regs := { s.regs with result := ⟨.pending, none, 0#8, 0#8⟩ } }

theorem startExchange_eq (q : Request) (s : State) : startExchange q s = clientTrySend (requestLoaded q s) := rfl

/-! ## `DSGO` -/

section
variable (p : Params) (m : Memory) (t : BitVec 2) (a n : Nat) (vs : List Word)

theorem dsSize_of_bits {b : BitTable} (ht : dsBits t = some b) : dsSize p t = bitSize p b := by
  simp only [dsSize, ht]

theorem dsSize_of_regs (ht : dsBits t = none) : dsSize p t = regSize p (dsRegs t) := by
  simp only [dsSize, ht]

theorem dsRead_of_bits {b : BitTable} (ht : dsBits t = some b) (h : a + n ≤ dsSize p t) :
    dsRead p m t a n = .ok ((readCells (bitCells m b) a n).map fun x => x.setWidth 16) := by
  rw [dsSize_of_bits p t ht] at h
  simp only [dsRead, ht, (memReadBits_ok p m b a n _).2 ⟨h, rfl⟩]

theorem dsRead_of_regs (ht : dsBits t = none) (h : a + n ≤ dsSize p t) :
    dsRead p m t a n = .ok (readCells (regCells m (dsRegs t)) a n) := by
  rw [dsSize_of_regs p t ht] at h
  simp only [dsRead, ht, (memReadRegs_ok p m _ a n _).2 ⟨h, rfl⟩]

theorem dsWrite_of_bits {b : BitTable} (ht : dsBits t = some b) (h : a + vs.length ≤ dsSize p t) :
    dsWrite p m t a vs = .ok (withBitCells m b (writeCells (bitCells m b) a (vs.map fun x => x.extractLsb' 0 1))) := by
  rw [dsSize_of_bits p t ht] at h
  simp only [dsWrite, ht]
  exact (memWriteBits_ok p m _ b a _).2 ⟨by simpa using h, rfl⟩

theorem dsWrite_of_regs (ht : dsBits t = none) (h : a + vs.length ≤ dsSize p t) :
    dsWrite p m t a vs = .ok (withRegCells m (dsRegs t) (writeCells (regCells m (dsRegs t)) a vs)) := by
  rw [dsSize_of_regs p t ht] at h
  simp only [dsWrite, ht]
  exact (memWriteRegs_ok p m _ _ a _).2 ⟨h, rfl⟩

end

/-- The range check of `DSGO`, condition by condition (R370). -/
theorem dsLegal_iff (p : Params) (r : Regs) : dsLegal p r = true ↔
    (1 ≤ r.dsCount.toNat ∧ r.dsCount.toNat ≤ 125) ∧ r.dsStart.toNat + r.dsCount.toNat ≤ dsSize p r.dsTable := by
  have hwords : Config.winWords = 125 := rfl
  rw [dsLegal, hwords, Bool.and_eq_true, Bool.and_eq_true, decide_eq_true_eq, decide_eq_true_eq, decide_eq_true_eq,
    Nat.one_le_iff_ne_zero]

theorem execDsgo_of_illegal (s : State) (h : ¬dsLegal s.inst s.regs = true) : execDsgo s = .next (setDsErr true s) :=
  if_neg h

theorem execDsgo_of_read (s : State) (h : dsLegal s.inst s.regs = true) (hwr : s.regs.dsWr = false) (v : List Word)
    (hv : dsRead s.inst s.mem s.regs.dsTable s.regs.dsStart.toNat s.regs.dsCount.toNat = .ok v) :
    execDsgo s =
      .next { s with regs := { s.regs with dsErr := false, dswin := writeCells s.regs.dswin 0 v } } := by
  rw [execDsgo, if_pos h, if_neg (by simp [hwr]), hv]
  rfl

theorem execDsgo_of_write (s : State) (h : dsLegal s.inst s.regs = true) (hwr : s.regs.dsWr = true) (m : Memory)
    (hm : dsWrite s.inst s.mem s.regs.dsTable s.regs.dsStart.toNat (readCells s.regs.dswin 0 s.regs.dsCount.toNat) = .ok m) :
    execDsgo s = .next { s with mem := m, regs := { s.regs with dsErr := false } } := by
  rw [execDsgo, if_pos h, if_pos hwr, hm]
  rfl

/-- What `DSGO` can do (R370). -/
theorem execDsgo_outcome (s : State) : ∃ t, execDsgo s = .next t ∧
    (t = setDsErr true s ∨
      (∃ v, v.length ≤ 125 ∧
        t = { s with regs := { s.regs with dsErr := false, dswin := writeCells s.regs.dswin 0 v } }) ∨
      (∃ b a vs, a + List.length vs ≤ bitSize s.inst b ∧
        t = { s with
          mem := withBitCells s.mem b (writeCells (bitCells s.mem b) a vs), regs := { s.regs with dsErr := false } }) ∨
      ∃ b a vs, a + List.length vs ≤ regSize s.inst b ∧
        t = { s with
          mem := withRegCells s.mem b (writeCells (regCells s.mem b) a vs), regs := { s.regs with dsErr := false } }) := by
  by_cases hlegal : dsLegal s.inst s.regs = true
  · obtain ⟨⟨hmin, hmax⟩, hrange⟩ := (dsLegal_iff s.inst s.regs).1 hlegal
    have hlen : s.regs.dsStart.toNat + (readCells s.regs.dswin 0 s.regs.dsCount.toNat).length ≤
        dsSize s.inst s.regs.dsTable := by simpa using hrange
    cases hwr : s.regs.dsWr with
    | false =>
      cases ht : dsBits s.regs.dsTable with
      | some b =>
        exact ⟨_, execDsgo_of_read s hlegal hwr _ (dsRead_of_bits _ s.mem _ _ _ ht hrange),
          .inr (.inl ⟨_, by simpa using hmax, rfl⟩)⟩
      | none =>
        exact ⟨_, execDsgo_of_read s hlegal hwr _ (dsRead_of_regs _ s.mem _ _ _ ht hrange),
          .inr (.inl ⟨_, by simpa using hmax, rfl⟩)⟩
    | true =>
      cases ht : dsBits s.regs.dsTable with
      | some b =>
        refine ⟨_, execDsgo_of_write s hlegal hwr _ (dsWrite_of_bits _ s.mem _ _ _ ht hlen),
          .inr (.inr (.inl ⟨b, _, _, ?_, rfl⟩))⟩
        rw [dsSize_of_bits _ _ ht] at hlen
        simpa using hlen
      | none =>
        refine ⟨_, execDsgo_of_write s hlegal hwr _ (dsWrite_of_regs _ s.mem _ _ _ ht hlen),
          .inr (.inr (.inr ⟨_, _, _, ?_, rfl⟩))⟩
        rwa [dsSize_of_regs _ _ ht] at hlen
  · exact ⟨_, execDsgo_of_illegal s hlegal, .inl rfl⟩

/-! ## A legal `DSGO`, table by table -/

section
variable (s : State)

/-- A legal read fills the window with the values read (R370). -/
theorem execDsgo_reads (f : Nat → Word) (hwin : cellsWf s.regs.dswin = true) (hwr : s.regs.dsWr = false)
    (hmin : 1 ≤ s.regs.dsCount.toNat) (hmax : s.regs.dsCount.toNat ≤ 125)
    (hrange : s.regs.dsStart.toNat + s.regs.dsCount.toNat ≤ dsSize s.inst s.regs.dsTable)
    (hread : dsRead s.inst s.mem s.regs.dsTable s.regs.dsStart.toNat s.regs.dsCount.toNat =
      .ok ((List.range s.regs.dsCount.toNat).map fun i => f (s.regs.dsStart.toNat + i))) :
    ∃ win, exec .dsgoCmd s = .next { s with regs := { s.regs with dsErr := false, dswin := win } } ∧
      (∀ i, i < s.regs.dsCount.toNat → readCell win i = f (s.regs.dsStart.toNat + i)) ∧
      ∀ i, s.regs.dsCount.toNat ≤ i → readCell win i = readCell s.regs.dswin i := by
  have hlegal := (dsLegal_iff s.inst s.regs).2 ⟨⟨hmin, hmax⟩, hrange⟩
  refine ⟨_, execDsgo_of_read s hlegal hwr _ hread, fun i hi => ?_, fun i hi => ?_⟩
  · have hin := readCell_writeCells_inside ((List.range s.regs.dsCount.toNat).map fun i => f (s.regs.dsStart.toNat + i))
      s.regs.dswin 0 i hwin (by simpa using hi)
    simpa [List.getD_eq_getElem?_getD, List.getElem?_range hi] using hin
  · exact readCell_writeCells_outside _ s.regs.dswin 0 i (.inr (by simpa using hi))

theorem execDsgo_readsBits (b : BitTable) (hwin : cellsWf s.regs.dswin = true) (hwr : s.regs.dsWr = false)
    (hmin : 1 ≤ s.regs.dsCount.toNat) (hmax : s.regs.dsCount.toNat ≤ 125) (ht : dsBits s.regs.dsTable = some b)
    (hrange : s.regs.dsStart.toNat + s.regs.dsCount.toNat ≤ bitSize s.inst b) :
    ∃ win, exec .dsgoCmd s = .next { s with regs := { s.regs with dsErr := false, dswin := win } } ∧
      (∀ i, i < s.regs.dsCount.toNat →
        readCell win i = (readCell (bitCells s.mem b) (s.regs.dsStart.toNat + i)).setWidth 16) ∧
      ∀ i, s.regs.dsCount.toNat ≤ i → readCell win i = readCell s.regs.dswin i := by
  rw [← dsSize_of_bits s.inst _ ht] at hrange
  refine execDsgo_reads s (fun k => (readCell (bitCells s.mem b) k).setWidth 16) hwin hwr hmin hmax hrange ?_
  rw [dsRead_of_bits s.inst s.mem _ _ _ ht hrange, readCells, List.map_map]
  rfl

theorem execDsgo_readsRegs (r : RegTable) (hwin : cellsWf s.regs.dswin = true) (hwr : s.regs.dsWr = false)
    (hmin : 1 ≤ s.regs.dsCount.toNat) (hmax : s.regs.dsCount.toNat ≤ 125) (ht : dsBits s.regs.dsTable = none)
    (hr : dsRegs s.regs.dsTable = r) (hrange : s.regs.dsStart.toNat + s.regs.dsCount.toNat ≤ regSize s.inst r) :
    ∃ win, exec .dsgoCmd s = .next { s with regs := { s.regs with dsErr := false, dswin := win } } ∧
      (∀ i, i < s.regs.dsCount.toNat → readCell win i = readCell (regCells s.mem r) (s.regs.dsStart.toNat + i)) ∧
      ∀ i, s.regs.dsCount.toNat ≤ i → readCell win i = readCell s.regs.dswin i := by
  subst hr
  rw [← dsSize_of_regs s.inst _ ht] at hrange
  exact execDsgo_reads s (readCell (regCells s.mem (dsRegs s.regs.dsTable))) hwin hwr hmin hmax hrange
    (dsRead_of_regs s.inst s.mem _ _ _ ht hrange)

theorem execDsgo_writesBits (b : BitTable) (hmem : s.mem.wf = true) (hwr : s.regs.dsWr = true)
    (hmin : 1 ≤ s.regs.dsCount.toNat) (hmax : s.regs.dsCount.toNat ≤ 125) (ht : dsBits s.regs.dsTable = some b)
    (hrange : s.regs.dsStart.toNat + s.regs.dsCount.toNat ≤ bitSize s.inst b) :
    ∃ c, exec .dsgoCmd s = .next { s with mem := withBitCells s.mem b c, regs := { s.regs with dsErr := false } } ∧
      (∀ i, i < s.regs.dsCount.toNat →
        readCell c (s.regs.dsStart.toNat + i) = (readCell s.regs.dswin i).extractLsb' 0 1) ∧
      ∀ k, k < s.regs.dsStart.toNat ∨ s.regs.dsStart.toNat + s.regs.dsCount.toNat ≤ k →
        readCell c k = readCell (bitCells s.mem b) k := by
  rw [← dsSize_of_bits s.inst _ ht] at hrange
  have hlegal := (dsLegal_iff s.inst s.regs).2 ⟨⟨hmin, hmax⟩, hrange⟩
  refine ⟨_, execDsgo_of_write s hlegal hwr _ (dsWrite_of_bits s.inst s.mem _ _ _ ht (by simpa using hrange)),
    fun i hi => ?_, fun k hk => ?_⟩
  · rw [readCell_writeCells_inside _ _ _ i (bitCells_wf s.mem b hmem) (by simpa using hi)]
    simp [readCells, List.getD_eq_getElem?_getD, List.getElem?_range hi]
  · exact readCell_writeCells_outside _ _ _ k (by simpa using hk)

theorem execDsgo_writesRegs (r : RegTable) (hmem : s.mem.wf = true) (hwr : s.regs.dsWr = true)
    (hmin : 1 ≤ s.regs.dsCount.toNat) (hmax : s.regs.dsCount.toNat ≤ 125) (ht : dsBits s.regs.dsTable = none)
    (hr : dsRegs s.regs.dsTable = r) (hrange : s.regs.dsStart.toNat + s.regs.dsCount.toNat ≤ regSize s.inst r) :
    ∃ c, exec .dsgoCmd s = .next { s with mem := withRegCells s.mem r c, regs := { s.regs with dsErr := false } } ∧
      (∀ i, i < s.regs.dsCount.toNat → readCell c (s.regs.dsStart.toNat + i) = readCell s.regs.dswin i) ∧
      ∀ k, k < s.regs.dsStart.toNat ∨ s.regs.dsStart.toNat + s.regs.dsCount.toNat ≤ k →
        readCell c k = readCell (regCells s.mem r) k := by
  subst hr
  rw [← dsSize_of_regs s.inst _ ht] at hrange
  have hlegal := (dsLegal_iff s.inst s.regs).2 ⟨⟨hmin, hmax⟩, hrange⟩
  refine ⟨_, execDsgo_of_write s hlegal hwr _ (dsWrite_of_regs s.inst s.mem _ _ _ ht (by simpa using hrange)),
    fun i hi => ?_, fun k hk => ?_⟩
  · rw [readCell_writeCells_inside _ _ _ i (regCells_wf s.mem _ hmem) (by simpa using hi),
      readCells_getD _ _ _ _ _ hi, Nat.zero_add]
  · exact readCell_writeCells_outside _ _ _ k (by simpa using hk)

end

end Sys2Proof.Machine

open Sys2Proof Sys2Proof.Machine

/-- Settles O29: the derived values fit their fields, and the role of the session decides how its receiver starts. -/
theorem openStartsASession : Obligations.OpenStartsASession := by
  intro s hclosed hlegal
  obtain ⟨hcb, ht15, ht35, htmo⟩ := latchedCfg_toNat s.regs
  refine ⟨(latchedCfg s.regs).cb, (latchedCfg s.regs).t15, (latchedCfg s.regs).t35, (latchedCfg s.regs).tmo,
    hcb.trans (charTicks_eq _ _), ht15.trans (by rw [hcb]; rfl), ht35.trans ?_, htmo, ?_⟩
  · have hzero : s.regs.ift = 0#16 ↔ s.regs.ift.toNat = 0 := BitVec.toNat_eq
    simp only [t35Of, hcb, hzero]
  · rw [show exec .openCmd s = execOpen s from rfl, execOpen_of_legal s hclosed hlegal]
    cases hrole : s.regs.mode.getLsbD 0 with
    | true =>
      have hserver := (modeRole_eq_server s.regs.mode).2 hrole
      rw [opened, sessionRx_of_server _ hserver]
      simp [latchedCfg, hserver, rxArm]
      exact ⟨rfl, rfl, rfl⟩
    | false =>
      have hclient := (modeRole_eq_client s.regs.mode).2 hrole
      rw [opened, sessionRx_of_client _ hclient]
      simp [latchedCfg, hclient]
      exact ⟨rfl, rfl, rfl⟩

/-- Settles O30. -/
theorem openTurnedAway : Obligations.OpenTurnedAway :=
  fun s => ⟨execOpen_of_open s, execOpen_of_illegal s⟩

/-- Settles O32: the frame of the request is loaded, and the line's silence decides whether its transmission starts. -/
theorem goStartsTheExchange : Obligations.GoStartsTheExchange := by
  rintro s q ⟨-, -, -, -, hbuf⟩ hopen hrole hidle htx rfl hlegal
  have hlen := buildRequest_length s.inst s.regs.win (hostRequest s.regs) hlegal
  have hexec : exec .goCmd s = .next (clientTrySend (requestLoaded (hostRequest s.regs) s)) :=
    execGo_of_legal s hopen hrole hidle hlegal
  have hsend : clientTrySend (requestLoaded (hostRequest s.regs) s) = if s.cfg.t35.toNat ≤ s.sil.toNat then
      txStart (requestLoaded (hostRequest s.regs) s) else requestLoaded (hostRequest s.regs) s :=
    clientTrySend_of_sending _ rfl htx
  have hholds : TxHolds (encodeFrame (hostRequest s.regs).unit (hostRequest s.regs).fc
      (buildRequest s.regs.win (hostRequest s.regs))) s (requestLoaded (hostRequest s.regs) s) := by
    refine ⟨?_, readCells_writeCells _ _ 0 hbuf, fun a ha => ?_⟩
    · exact Nat.mod_eq_of_lt (by rw [encodeFrame_length]; omega)
    · exact readCell_writeCells_outside _ _ 0 a (.inr ((Nat.zero_add _).trans_le ha))
  rw [hexec, hsend]
  by_cases hsil : s.cfg.t35.toNat ≤ s.sil.toNat
  · rw [if_pos hsil]
    exact ⟨_, _, rfl, buildRequest_payload s.regs.win _, hholds, rfl, rfl, fun _ => ⟨rfl, rfl, rfl⟩,
      fun h => absurd hsil (Nat.not_le.2 h), rfl, rfl, rfl, rfl, rfl, rfl, rfl, rfl, rfl⟩
  · rw [if_neg hsil]
    exact ⟨_, _, rfl, buildRequest_payload s.regs.win _, hholds, rfl, rfl, fun h => absurd h hsil,
      fun _ => ⟨htx, rfl, rfl⟩, rfl, rfl, rfl, rfl, rfl, rfl, rfl, rfl, rfl⟩

/-- Settles O33: the three ways `GO` is turned away, each with the flags it sets. -/
theorem goTurnedAway : Obligations.GoTurnedAway := by
  intro s
  have hclosed : s.regs.evt ||| evtDone ||| evtTerr = s.regs.evt ||| 0x09#5 := BitVec.or_assoc _ _ _
  have hrejected : s.regs.evt ||| evtDone ||| evtCmdrej = s.regs.evt ||| 0x11#5 := BitVec.or_assoc _ _ _
  refine ⟨fun h => ?_, execGo_of_busy s, fun hopen hrole hidle h => ?_⟩
  · rw [← hclosed]
    exact execGo_of_closed s h
  · rw [← hrejected]
    exact execGo_of_illegal s hopen hrole hidle h

/-- Settles O34: the four rows are the two kinds of table, read whole into the window. -/
theorem dsgoReadsTheRange : Obligations.DsgoReadsTheRange := by
  rintro s a n ⟨-, -, hwin, -⟩ hwr rfl rfl hmin hmax row hrow htable hrange
  simp only [List.mem_cons, List.not_mem_nil, or_false] at hrow
  obtain rfl | rfl | rfl | rfl := hrow
  · exact execDsgo_readsBits s .coils hwin hwr hmin hmax (by rw [htable]; rfl) hrange
  · exact execDsgo_readsBits s .di hwin hwr hmin hmax (by rw [htable]; rfl) hrange
  · exact execDsgo_readsRegs s .hr hwin hwr hmin hmax (by rw [htable]; rfl) (by rw [htable]; rfl) hrange
  · exact execDsgo_readsRegs s .ir hwin hwr hmin hmax (by rw [htable]; rfl) (by rw [htable]; rfl) hrange

/-- Settles O35: the four rows are the two kinds of table, the range stored from the window. -/
theorem dsgoWritesTheRange : Obligations.DsgoWritesTheRange := by
  rintro s a n ⟨hmem, -⟩ hwr rfl rfl hmin hmax
  refine ⟨fun row hrow htable hrange => ?_, fun row hrow htable hrange => ?_⟩
  all_goals
    simp only [List.mem_cons, List.not_mem_nil, or_false] at hrow
    obtain rfl | rfl := hrow
  · exact execDsgo_writesBits s .coils hmem hwr hmin hmax (by rw [htable]; rfl) hrange
  · exact execDsgo_writesBits s .di hmem hwr hmin hmax (by rw [htable]; rfl) hrange
  · exact execDsgo_writesRegs s .hr hmem hwr hmin hmax (by rw [htable]; rfl) (by rw [htable]; rfl) hrange
  · exact execDsgo_writesRegs s .ir hmem hwr hmin hmax (by rw [htable]; rfl) (by rw [htable]; rfl) hrange

/-- Settles O36: each row's size is the bound of the range check, which fails in one of its three conditions. -/
theorem dsgoRejectsIllegalRange : Obligations.DsgoRejectsIllegalRange := by
  intro s size hsize h
  have hbound : dsSize s.inst s.regs.dsTable = size := by
    obtain ⟨htable, rfl⟩ | ⟨htable, rfl⟩ | ⟨htable, rfl⟩ | ⟨htable, rfl⟩ := hsize <;> rw [htable] <;> rfl
  refine execDsgo_of_illegal s fun hlegal => ?_
  obtain ⟨⟨hmin, hmax⟩, hrange⟩ := (dsLegal_iff s.inst s.regs).1 hlegal
  omega

end

section
/-! PROOFS. What every step does: it answers (R401), it keeps the canonical form (log 10), and a line event leaves the host's side of the
block alone (R266, R339, R366). The operations of a line event are followed once, with the relation `LineKeeps`. -/

namespace Sys2Proof.Machine

/-! ## Every step answers -/

theorem addressed_answers {fc : Byte} {run : PduFn} (hfn : RouterFn fc run) (s : State) :
    ∃ t, addressed fc run s = .next t := by
  obtain ⟨m, r, hrun, -⟩ := hfn s.inst s.mem
  exact ⟨_, addressed_of_ok fc run s m r hrun⟩

theorem broadcast_answers {fc : Byte} {run : PduFn} (hfn : RouterFn fc run) (s : State) :
    ∃ t, broadcast fc run s = .next t := by
  obtain ⟨m, r, hrun, -⟩ := hfn s.inst s.mem
  unfold broadcast
  rw [hrun]
  split <;> exact ⟨_, rfl⟩

theorem acceptFrame_answers {fc : Byte} {run : PduFn} (hfn : RouterFn fc run) (addr : Byte) (p : List Byte) (s : State) :
    ∃ t, acceptFrame addr fc p run s = .next t := by
  unfold acceptFrame serverFrame
  split
  · split
    · split
      · exact addressed_answers hfn _
      · split
        · exact broadcast_answers hfn _
        · exact ⟨_, rfl⟩
    · exact ⟨_, rfl⟩
  · exact ⟨_, rfl⟩

theorem frameEnd_answers (s : State) : ∃ t, frameEnd s = .next t := by
  cases hdec : decodeFrame s.rx.overrun s.rx.charErr s.rx.gap (rxFrame s) with
  | ok fr =>
    obtain ⟨run, hfn, hend⟩ := frameEnd_routerFn s fr hdec
    rw [hend]
    exact acceptFrame_answers hfn _ _ _
  | error k =>
    cases hrole : s.cfg.role with
    | server => exact ⟨_, frameEnd_of_frameError_server s k hrole hdec⟩
    | client => exact ⟨_, frameEnd_of_frameError_client s k hrole hdec⟩

theorem idleReceiver_answers (s : State) : ∃ t, idleReceiver s = .next t := by
  by_cases hend : FrameEnds s.cfg s.sil.toNat s.rx
  · obtain ⟨hen, hst, hsil⟩ := hend
    rw [idleReceiver_of_frameEnd s hen hst hsil]
    exact frameEnd_answers s
  · exact ⟨_, idleReceiver_of_not_frameEnds s hend⟩

theorem idleTick_answers (s : State) : ∃ t, idleTick s = .next t := by
  obtain ⟨t, ht⟩ := idleReceiver_answers (idleCounters s)
  unfold idleTick
  rw [ht]
  split <;> exact ⟨_, rfl⟩

theorem rxChar_answers (b : Byte) (err : Bool) (s : State) : ∃ t, rxChar b err s = .next t := by
  unfold rxChar
  split <;> exact ⟨_, rfl⟩

theorem txChar_answers (s : State) : ∃ t, txChar s = .next t := by
  unfold txChar
  split
  · dsimp only
    split <;> exact ⟨_, rfl⟩
  · exact ⟨_, rfl⟩

/-- Every instruction answers, from every state (R401). -/
theorem exec_answers (i : Instr) (s : State) : ∃ t, exec i s = .next t := by
  cases hf : frameOf i with
  | some fr =>
    obtain ⟨run, hfn, hrun⟩ := exec_routerFn i fr hf
    rw [hrun]
    exact acceptFrame_answers hfn _ _ _
  | none =>
    cases i with
    | openCmd =>
      show ∃ t, execOpen s = .next t
      unfold execOpen
      split_ifs <;> exact ⟨_, rfl⟩
    | closeCmd =>
      show ∃ t, execClose s = .next t
      unfold execClose
      split_ifs <;> exact ⟨_, rfl⟩
    | goCmd =>
      show ∃ t, execGo s = .next t
      unfold execGo
      split_ifs <;> exact ⟨_, rfl⟩
    | dsgoCmd =>
      obtain ⟨t, ht, -⟩ := execDsgo_outcome s
      exact ⟨t, ht⟩
    | crcInit | crcDataWrite b | evtClear m => exact ⟨_, rfl⟩
    | _ => cases hf

theorem execAll_answers (l : List Instr) (s : State) : ∃ t, execAll l s = .next t := by
  induction l generalizing s with
  | nil => exact ⟨s, rfl⟩
  | cons i r ih =>
    obtain ⟨u, hu⟩ := exec_answers i s
    obtain ⟨t, ht⟩ := ih u
    exact ⟨t, (execAll_cons_next i r s t).2 ⟨u, hu, ht⟩⟩

theorem csrWrite_answers (n : Nat) (v : Reg) (s : State) : ∃ t, csrWrite n v s = .next t := by
  unfold csrWrite
  split
  · exact execAll_answers _ s
  · exact ⟨_, rfl⟩

/-- An event that a low `rst_n` masks answers when its handling does (R440). -/
theorem masked_answers {b : Bool} {o : Host.Outcome State Fault Refusal} {s : State} (h : ∃ t, o = .next t) :
    ∃ t, (if b then o else .next s) = .next t := by
  cases b with
  | true => exact h
  | false => exact ⟨s, rfl⟩

theorem handle_answers (e : Event) (s : State) : ∃ t, handle e s = .next t := by
  cases e with
  | reset | rstRise => exact ⟨_, rfl⟩
  | csrWrite n v => exact masked_answers (csrWrite_answers n v s)
  | csrRead n => exact masked_answers ⟨_, rfl⟩
  | idleTick => exact masked_answers (idleTick_answers s)
  | rxChar b err => exact masked_answers (rxChar_answers b err s)
  | rxLine samples => exact masked_answers (rxChar_answers _ _ s)
  | txChar => exact masked_answers (txChar_answers s)

/-! ## What a line event keeps -/

/-- From `s` to `t` only what a line event may change has changed: the engines, the line, `EVT` but for `TERR` and `CMDREJ`, `RESULT`,
`SRVSTAT`, `WIN`, and in server role the tables a write may store in (R266, R339, R366, R420); the canonical form is kept (log 10). -/
structure LineKeeps (s t : State) : Prop where
  inst : t.inst = s.inst
  isOpen : t.isOpen = s.isOpen
  cfg : t.cfg = s.cfg
  rstN : t.rstN = s.rstN
  inputs : t.inputs = s.inputs
  di : t.mem.di = s.mem.di
  ir : t.mem.ir = s.mem.ir
  clientMem : s.cfg.role = .client → t.mem = s.mem
  regs : t.regs = { s.regs with
    evt := t.regs.evt, result := t.regs.result, srv := t.regs.srv, win := t.regs.win }
  hostFlags : t.regs.evt &&& 0x18#5 = s.regs.evt &&& 0x18#5
  canonical : Canonical s → Canonical t

section
variable {s t u : State}

theorem LineKeeps.refl (s : State) : LineKeeps s s :=
  ⟨rfl, rfl, rfl, rfl, rfl, rfl, rfl, fun _ => rfl, rfl, rfl, id⟩

theorem LineKeeps.trans (hst : LineKeeps s t) (htu : LineKeeps t u) : LineKeeps s u where
  inst := htu.inst.trans hst.inst
  isOpen := htu.isOpen.trans hst.isOpen
  cfg := htu.cfg.trans hst.cfg
  rstN := htu.rstN.trans hst.rstN
  inputs := htu.inputs.trans hst.inputs
  di := htu.di.trans hst.di
  ir := htu.ir.trans hst.ir
  clientMem := fun hrole => (htu.clientMem (by rw [hst.cfg, hrole])).trans (hst.clientMem hrole)
  regs := by
    have htu := htu.regs
    rw [hst.regs] at htu
    exact htu
  hostFlags := htu.hostFlags.trans hst.hostFlags
  canonical := htu.canonical ∘ hst.canonical

/-- The flags of a line event are none of the host's (R363, R408). -/
theorem or_and_hostFlags (e f : BitVec 5) (hf : f &&& 0x18#5 = 0#5) : (e ||| f) &&& 0x18#5 = e &&& 0x18#5 := by
  rw [BitVec.and_comm, BitVec.and_or_distrib_left, BitVec.and_comm _ f, hf, BitVec.or_zero, BitVec.and_comm]

/-- An update of the engines, the receiver's flags and state, the transmitter's position and the output. -/
theorem LineKeeps.of_engines (h : t = { s with
      rx := { t.rx with buf := s.rx.buf }, tx := { t.tx with buf := s.tx.buf }
      client := t.client, sstate := t.sstate, sil := t.sil, out := t.out }) : LineKeeps s t := by
  rw [h]
  exact ⟨rfl, rfl, rfl, rfl, rfl, rfl, rfl, fun _ => rfl, rfl, rfl, id⟩

/-! ## The client's engine -/

theorem lineKeeps_finish (r : Result) (s : State) : LineKeeps s (finish r s) :=
  ⟨rfl, rfl, rfl, rfl, rfl, rfl, rfl, fun _ => rfl, rfl, or_and_hostFlags _ evtDone rfl, id⟩

theorem lineKeeps_rxdrop (s : State) : LineKeeps s (State.setEvt evtRxdrop s) :=
  ⟨rfl, rfl, rfl, rfl, rfl, rfl, rfl, fun _ => rfl, rfl, or_and_hostFlags _ evtRxdrop rfl, id⟩

theorem lineKeeps_clientTrySend (s : State) : LineKeeps s (clientTrySend s) := by
  obtain ⟨-, -, -, h⟩ | h := clientTrySend_cases s <;> rw [h]
  · exact .of_engines rfl
  · exact .refl s

theorem lineKeeps_retryOrFail (code : ResultCode) (k : Option FrameError) (s : State) :
    LineKeeps s (retryOrFail code k s) := by
  by_cases hleft : s.client.retryLeft = 0#8
  · rw [retryOrFail_of_none code k s hleft]
    exact (lineKeeps_finish _ s).trans (.of_engines rfl)
  · rw [retryOrFail_of_left code k s hleft]
    exact (LineKeeps.of_engines rfl).trans (lineKeeps_clientTrySend _)

theorem lineKeeps_timedOut (s : State) : LineKeeps s (timedOut s) :=
  (LineKeeps.of_engines (s := s) (t := rxOff (setCState .timedOut s)) rfl).trans (lineKeeps_retryOrFail _ _ _)

theorem lineKeeps_crcError (k : FrameError) (s : State) : LineKeeps s (crcError k s) :=
  ((LineKeeps.of_engines (s := s) (t := rxOff (setCState .crcErr s)) rfl).trans (lineKeeps_rxdrop _)).trans
    (lineKeeps_retryOrFail _ _ _)

/-- A matched frame stores whole words in the window (R303). -/
theorem cellsWf_matchedWin (q : Request) (fr : Frame) (win : Cells 16) (h : cellsWf win = true) :
    cellsWf (matchedWin q fr win) = true := by
  unfold matchedWin storeResponse
  split_ifs
  · exact h
  · exact cellsWf_writeCells _ win 0 h
  · exact cellsWf_writeCells _ win 0 h
  · exact h

theorem lineKeeps_matched (fr : Frame) (s : State) : LineKeeps s (matched fr s) :=
  ⟨rfl, rfl, rfl, rfl, rfl, rfl, rfl, fun _ => rfl, rfl, or_and_hostFlags _ evtDone rfl,
    fun ⟨hmem, hwin, hdswin, hrx, htx⟩ => ⟨hmem, cellsWf_matchedWin _ _ _ hwin, hdswin, hrx, htx⟩⟩

theorem lineKeeps_clientFrame (fr : Frame) (s : State) : LineKeeps s (clientFrame fr s) := by
  unfold clientFrame
  split
  · exact .refl s
  · exact lineKeeps_crcError _ s
  · exact lineKeeps_matched fr s
  · exact lineKeeps_matched fr s

theorem lineKeeps_clientAfterChar (s : State) : LineKeeps s (clientAfterChar s) := by
  unfold clientAfterChar
  split
  · exact lineKeeps_timedOut s
  · exact .refl s

theorem lineKeeps_clientTick (s : State) : LineKeeps s (clientTick s) :=
  (lineKeeps_clientAfterChar s).trans (lineKeeps_clientTrySend _)

theorem lineKeeps_txDone (s : State) : LineKeeps s (txDone s) := by
  cases hrole : s.cfg.role with
  | server =>
    rw [txDone_of_server s hrole]
    exact .of_engines rfl
  | client =>
    rw [txDone_of_client s hrole]
    by_cases hunit : s.client.rq.unit = 0#8
    · rw [clientTxDone_of_broadcast s hunit]
      exact (lineKeeps_finish _ s).trans (.of_engines rfl)
    · rw [clientTxDone_of_addressed s hunit]
      exact .of_engines rfl

/-! ## Frames -/

/-- What a server's function stores, and its record, in a session of the server's role (R266, R333, R335). -/
theorem lineKeeps_served {fc exc : Byte} {bcast : Bool} {m : Memory} {r : Reply} (hrole : s.cfg.role = .server)
    (hserves : Serves fc s.inst s.mem m r) : LineKeeps s (recordRequest fc exc bcast { s with mem := m }) where
  inst := rfl
  isOpen := rfl
  cfg := rfl
  rstN := rfl
  inputs := rfl
  di := hserves.inputs.1
  ir := hserves.inputs.2
  clientMem := fun hclient => Role.noConfusion (hrole.symm.trans hclient)
  regs := rfl
  hostFlags := or_and_hostFlags _ evtSrvreq rfl
  canonical := fun ⟨hmem, hwin, hdswin, hrx, htx⟩ => ⟨hserves.wf hmem, hwin, hdswin, hrx, htx⟩

theorem lineKeeps_sendResponse (rfc : Byte) (rp : List Byte) (s : State) : LineKeeps s (sendResponse rfc rp s) :=
  ⟨rfl, rfl, rfl, rfl, rfl, rfl, rfl, fun _ => rfl, rfl, rfl,
    fun ⟨hmem, hwin, hdswin, hrx, htx⟩ => ⟨hmem, hwin, hdswin, hrx, cellsWf_writeCells _ _ 0 htx⟩⟩

theorem acceptFrame_lineKeeps {addr fc : Byte} {p : List Byte} {run : PduFn} (hfn : RouterFn fc run)
    (h : acceptFrame addr fc p run s = .next t) : LineKeeps s t := by
  obtain ⟨-, rfl⟩ | ⟨-, hrole, hserver⟩ | ⟨-, -, rfl⟩ := acceptFrame_next addr fc p run s t h
  · exact .refl t
  · have hdispatch : LineKeeps s { s with sstate := .dispatch } := .of_engines rfl
    obtain ⟨-, hrun⟩ | ⟨-, -, -, hrun⟩ | ⟨-, -, rfl⟩ := serverFrame_next addr fc run s t hserver
    · obtain ⟨m, r, hok, rfl⟩ := addressed_next fc run _ t hrun
      have hserved := lineKeeps_served (s := { s with sstate := .dispatch }) (exc := r.exc) (bcast := false) hrole
        (hfn.serves hok)
      exact hdispatch.trans (hserved.trans (lineKeeps_sendResponse _ _ _))
    · obtain ⟨-, -, m, r, hok, rfl⟩ | ⟨-, rfl⟩ := broadcast_next fc run _ t hrun
      · have hserved := lineKeeps_served (s := { s with sstate := .dispatch }) (exc := r.exc) (bcast := true) hrole
          (hfn.serves hok)
        exact hdispatch.trans (hserved.trans (.of_engines rfl))
      · exact .of_engines rfl
    · exact .of_engines rfl
  · exact lineKeeps_clientFrame _ s

theorem lineKeeps_setRxState (r : RxState) (s : State) : LineKeeps s (setRxState r s) := .of_engines rfl

theorem frameEnd_lineKeeps (h : frameEnd s = .next t) : LineKeeps s t := by
  have hidle := lineKeeps_setRxState .idle s
  cases hdec : decodeFrame s.rx.overrun s.rx.charErr s.rx.gap (rxFrame s) with
  | ok fr =>
    obtain ⟨run, hfn, hend⟩ := frameEnd_routerFn s fr hdec
    exact hidle.trans (acceptFrame_lineKeeps hfn (hend.symm.trans h))
  | error k =>
    cases hrole : s.cfg.role with
    | server =>
      cases (frameEnd_of_frameError_server s k hrole hdec).symm.trans h
      exact ⟨rfl, rfl, rfl, rfl, rfl, rfl, rfl, fun _ => rfl, rfl, or_and_hostFlags _ evtRxdrop rfl, id⟩
    | client =>
      cases (frameEnd_of_frameError_client s k hrole hdec).symm.trans h
      exact hidle.trans (lineKeeps_crcError k _)

/-! ## Line events -/

theorem idleReceiver_lineKeeps (h : idleReceiver s = .next t) : LineKeeps s t := by
  obtain rfl | ⟨-, -, -, rfl⟩ | ⟨-, -, -, rfl⟩ | ⟨-, -, -, hend⟩ := idleReceiver_next s t h
  · exact .refl t
  · exact lineKeeps_setRxState _ s
  · exact lineKeeps_setRxState _ s
  · exact frameEnd_lineKeeps hend

theorem idleTick_lineKeeps (h : idleTick s = .next t) : LineKeeps s t := by
  obtain ⟨-, rfl⟩ | ⟨-, u, hrx, rfl⟩ := idleTick_next s t h
  · exact .refl t
  · have hcount : LineKeeps s (idleCounters s) := by
      rw [idleCounters_eq]
      exact .of_engines rfl
    exact hcount.trans ((idleReceiver_lineKeeps hrx).trans (lineKeeps_clientTick u))

theorem cellsWf_storeChar (b : Byte) (err : Bool) (r : Rx) (h : cellsWf r.buf = true) :
    cellsWf (storeChar b err r).buf = true := by
  unfold storeChar
  split
  · exact cellsWf_writeCell _ _ _ h
  · exact h

/-- A character keeps the canonical form of the buffer (log 10). -/
theorem cellsWf_rxTake (b : Byte) (err : Bool) (r : Rx) (h : cellsWf r.buf = true) :
    cellsWf (rxTake b err r).buf = true := by
  unfold rxTake
  split
  · split
    · exact h
    · exact cellsWf_storeChar b err _ h
    · exact cellsWf_storeChar b err r h
    · exact cellsWf_storeChar b err _ h
  · exact h

theorem rxChar_lineKeeps (b : Byte) (err : Bool) (h : rxChar b err s = .next t) : LineKeeps s t := by
  obtain ⟨-, rfl⟩ | ⟨-, rfl⟩ := rxChar_next b err s t h
  · exact .refl t
  · refine LineKeeps.trans ?_ (lineKeeps_clientAfterChar _)
    rw [advanceTimer_eq]
    exact ⟨rfl, rfl, rfl, rfl, rfl, rfl, rfl, fun _ => rfl, rfl, rfl,
      fun ⟨hmem, hwin, hdswin, hrx, htx⟩ => ⟨hmem, hwin, hdswin, cellsWf_rxTake b err s.rx hrx, htx⟩⟩

theorem txChar_lineKeeps (h : txChar s = .next t) : LineKeeps s t := by
  obtain ⟨-, rfl⟩ | ⟨-, -, rfl⟩ | ⟨-, -, rfl⟩ := txChar_next s t h
  · exact .refl t
  · exact (LineKeeps.of_engines rfl).trans (lineKeeps_txDone _)
  · exact .of_engines rfl

/-- An event that a low `rst_n` masks changes nothing (R440). -/
theorem lineKeeps_of_masked {b : Bool} {o : Host.Outcome State Fault Refusal} (ho : o = .next t → LineKeeps s t)
    (h : (if b then o else .next s) = .next t) : LineKeeps s t := by
  cases b with
  | true => exact ho h
  | false =>
    cases h
    exact .refl s

theorem handle_lineKeeps (e : Event) (he : isLineEvent e = true) (h : handle e s = .next t) : LineKeeps s t := by
  cases e with
  | reset | rstRise | csrWrite | csrRead => cases he
  | idleTick => exact lineKeeps_of_masked idleTick_lineKeeps h
  | rxChar b err => exact lineKeeps_of_masked (rxChar_lineKeeps b err) h
  | rxLine samples => exact lineKeeps_of_masked (rxChar_lineKeeps _ _) h
  | txChar => exact lineKeeps_of_masked txChar_lineKeeps h

end

/-! ## The canonical form on the host's events (log 10) -/

section
variable {s t : State}

theorem canonical_opened (h : Canonical s) : Canonical (opened s) := by
  unfold opened sessionRx
  split <;> exact h

theorem canonical_abortExchange (h : Canonical s) : Canonical (abortExchange s) := by
  unfold abortExchange
  split <;> exact h

theorem canonical_startExchange (q : Request) (h : Canonical s) : Canonical (startExchange q s) := by
  obtain ⟨hmem, hwin, hdswin, hrx, htx⟩ := h
  have hloaded : Canonical (requestLoaded q s) := ⟨hmem, hwin, hdswin, hrx, cellsWf_writeCells _ _ 0 htx⟩
  rw [startExchange_eq]
  exact (lineKeeps_clientTrySend _).canonical hloaded

theorem exec_canonical (i : Instr) (h : Canonical s) (hexec : exec i s = .next t) : Canonical t := by
  cases hf : frameOf i with
  | some fr =>
    obtain ⟨run, hfn, hrun⟩ := exec_routerFn i fr hf
    exact (acceptFrame_lineKeeps hfn ((hrun s).symm.trans hexec)).canonical h
  | none =>
    cases i with
    | openCmd =>
      change execOpen s = .next t at hexec
      unfold execOpen at hexec
      split_ifs at hexec <;> cases hexec
      · exact h
      · exact canonical_opened h
      · exact h
    | closeCmd =>
      change execClose s = .next t at hexec
      unfold execClose at hexec
      split_ifs at hexec <;> cases hexec
      · exact canonical_abortExchange (s := lineOff s) h
      · exact h
    | goCmd =>
      change execGo s = .next t at hexec
      unfold execGo at hexec
      split_ifs at hexec <;> cases hexec
      · exact h
      · exact h
      · exact canonical_startExchange _ h
      · exact h
    | dsgoCmd =>
      obtain ⟨hmem, hwin, hdswin, hrx, htx⟩ := h
      obtain ⟨u, hu, hcases⟩ := execDsgo_outcome s
      cases hu.symm.trans hexec
      obtain rfl | ⟨v, -, rfl⟩ | ⟨b, a, vs, -, rfl⟩ | ⟨r, a, vs, -, rfl⟩ := hcases
      · exact ⟨hmem, hwin, hdswin, hrx, htx⟩
      · exact ⟨hmem, hwin, cellsWf_writeCells v _ 0 hdswin, hrx, htx⟩
      · exact ⟨withBitCells_wf _ b _ hmem (cellsWf_writeCells vs _ a (bitCells_wf _ b hmem)), hwin, hdswin, hrx, htx⟩
      · exact ⟨withRegCells_wf _ r _ hmem (cellsWf_writeCells vs _ a (regCells_wf _ r hmem)), hwin, hdswin, hrx, htx⟩
    | crcInit | crcDataWrite b | evtClear m =>
      cases hexec
      exact h
    | _ => cases hf

theorem execAll_canonical (l : List Instr) (h : Canonical s) (hexec : execAll l s = .next t) : Canonical t := by
  induction l generalizing s with
  | nil =>
    cases hexec
    exact h
  | cons i r ih =>
    obtain ⟨u, hfirst, hrest⟩ := (execAll_cons_next i r s t).1 hexec
    exact ih (exec_canonical i h hfirst) hrest

theorem writeReg_canonical (n : Nat) (v : Reg) (r : Regs) (hwin : cellsWf r.win = true) (hdswin : cellsWf r.dswin = true) :
    cellsWf (writeReg n v r).win = true ∧ cellsWf (writeReg n v r).dswin = true := by
  unfold writeReg
  split
  case h_13 =>
    split_ifs
    · exact ⟨cellsWf_writeCell _ _ _ hwin, hdswin⟩
    · exact ⟨hwin, cellsWf_writeCell _ _ _ hdswin⟩
    · exact ⟨hwin, hdswin⟩
  all_goals exact ⟨hwin, hdswin⟩

theorem csrWrite_canonical (n : Nat) (v : Reg) (h : Canonical s) (hwrite : csrWrite n v s = .next t) : Canonical t := by
  obtain ⟨l, -, hrun⟩ | ⟨r, -, rfl⟩ := csrWrite_next n v s t hwrite
  · exact execAll_canonical l h hrun
  · obtain ⟨hmem, hwin, hdswin, hrx, htx⟩ := h
    obtain ⟨hwin', hdswin'⟩ := writeReg_canonical n v s.regs hwin hdswin
    exact ⟨hmem, hwin', hdswin', hrx, htx⟩

theorem canonical_resetOf (p : Params) : Canonical (State.resetOf p) :=
  ⟨Memory.reset_wf, cellsWf_nil, cellsWf_nil, cellsWf_nil, cellsWf_nil⟩

/-- Every event keeps the canonical form. -/
theorem handle_canonical (e : Event) (h : Canonical s) (hhandle : handle e s = .next t) : Canonical t := by
  cases hline : isLineEvent e with
  | true => exact (handle_lineKeeps e hline hhandle).canonical h
  | false =>
    cases e with
    | reset =>
      cases hhandle
      exact canonical_resetOf s.inst
    | rstRise =>
      cases hhandle
      exact h
    | csrWrite n v =>
      unfold handle at hhandle
      split_ifs at hhandle
      · exact csrWrite_canonical n v h hhandle
      · cases hhandle
        exact h
    | csrRead n =>
      unfold handle at hhandle
      split_ifs at hhandle <;> cases hhandle <;> exact h
    | _ => cases hline

end

end Sys2Proof.Machine

open Sys2Proof Sys2Proof.Machine

/-- Settles O41: a step handles one event, and handling an event answers. -/
theorem everyStepAnswers : Obligations.EveryStepAnswers := by
  intro s
  cases hin : s.inputs with
  | nil =>
    rw [step_of_nil s hin]
    exact handle_answers _ _
  | cons e rest =>
    rw [step_of_event s e rest hin]
    exact handle_answers _ _

/-- Settles O44: taking the event off the list touches no table, and handling it keeps the form. -/
theorem stepKeepsCanonicalForm : Obligations.StepKeepsCanonicalForm := by
  intro s t hs hstep
  obtain ⟨e, rest, -, hhandle⟩ | ⟨-, hhandle⟩ := step_next s t hstep
  · exact handle_canonical (s := s.taken rest) e hs hhandle
  · exact handle_canonical (s := s.taken []) .txChar hs hhandle

/-- Settles O46: the relation `LineKeeps` holds across every line event, and no event but the acknowledge and `Reset` clears a flag. -/
theorem lineEventsRespectTheHost : Obligations.LineEventsRespectTheHost := by
  intro s t e rest hin hline hstep
  have hkeeps : LineKeeps (s.taken rest) t :=
    handle_lineKeeps e hline ((step_of_event s e rest hin).symm.trans hstep)
  have hflags : KeepsFlags s t := by
    refine step_keepsFlags (fun v rest' hw => ?_) (fun rest' hr => ?_) hstep
    · cases hin.symm.trans hw
      cases hline
    · cases hin.symm.trans hr
      cases hline
  have hclear : s.regs.evt &&& ~~~t.regs.evt = 0#5 := by
    refine BitVec.eq_of_getLsbD_eq fun i hi => ?_
    cases hset : s.regs.evt.getLsbD i with
    | true => rw [BitVec.getLsbD_and, BitVec.getLsbD_not, hflags i hset]; simp
    | false => rw [BitVec.getLsbD_and, hset]; simp
  exact ⟨hkeeps.isOpen, hkeeps.cfg, hkeeps.inst, hkeeps.rstN, hkeeps.inputs, hkeeps.di, hkeeps.ir, hkeeps.clientMem,
    hkeeps.regs, hclear, hkeeps.hostFlags⟩

end

section
/-! PROOFS. The invariant of the block: it holds after reset, and every event keeps it. Its clauses are kept in two parts, because inside a
step the counters run ahead: `Core` holds between all operations of a step, `RxTiming` and `WindowOpen` again at its end. -/

namespace Sys2Proof.Machine

/-! ## The two parts of the invariant -/

/-- What the operations inside a step keep among themselves, the reset input being high: the invariant without the canonical form, which
every operation keeps by itself, and without the two clauses about counters. -/
structure Core (s : State) : Prop where
  rstN : s.rstN = true
  legal : Config.legal s.inst = true
  inBounds : InBounds s
  cfg : CfgInv s
  sequence : SequenceInv s
  tx : TxInv s
  rxLen : s.rx.len.toNat ≤ 256
  pending : s.client.state ≠ .idle ↔ s.regs.result.code = .pending
  request : s.client.state ≠ .idle →
    reqValid s.inst s.client.rq = true ∧ s.client.retryLeft.toNat ≤ s.client.retryBound.toNat
  addressed : s.client.state = .await → s.client.rq.unit ≠ 0#8

/-- The receiver state agrees with the silence counter (R190). -/
def RxTiming (s : State) : Prop :=
  s.rx.en = true →
    (s.rx.state = .init → s.sil.toNat < s.cfg.t35.toNat) ∧ (s.rx.state = .recv → s.sil.toNat < s.cfg.t15.toNat) ∧
    (s.rx.state = .ctrlWait → s.cfg.t15.toNat ≤ s.sil.toNat ∧ s.sil.toNat < s.cfg.t35.toNat)

/-- The response window is open (R300). -/
def WindowOpen (s : State) : Prop := s.client.state = .await → s.client.respElapsed.toNat < s.cfg.tmo.toNat

/-- Both parts. -/
structure Settled (s : State) : Prop where
  core : Core s
  rx : RxTiming s
  window : WindowOpen s

theorem Settled.of_inv {s : State} (h : Inv s) (hrst : s.rstN = true) : Settled s := by
  obtain ⟨hlegal, -, hbounds, hcfg, hseq, htx, ⟨hlen, hrx⟩, ⟨hpending, hrequest, hawait⟩, -⟩ := h
  exact ⟨⟨hrst, hlegal, hbounds, hcfg, hseq, htx, hlen, hpending, hrequest, fun hst => (hawait hst).2⟩, hrx,
    fun hst => (hawait hst).1⟩

theorem Settled.inv {s : State} (h : Settled s) (hcanon : Canonical s) : Inv s where
  legal := h.core.legal
  canonical := hcanon
  inBounds := h.core.inBounds
  cfg := h.core.cfg
  sequence := h.core.sequence
  tx := h.core.tx
  rx := ⟨h.core.rxLen, h.rx⟩
  exchange := ⟨h.core.pending, h.core.request, fun hst => ⟨h.window hst, h.core.addressed hst⟩⟩
  held := fun hlow => Bool.noConfusion (h.core.rstN.symm.trans hlow)

theorem RxTiming.of_off {s : State} (h : s.rx.en = false) : RxTiming s := fun hen => Bool.noConfusion (h.symm.trans hen)

/-! ## What the sequencing states rule out (R25 to R27) -/

section
variable {s t : State} (h : Core s)
include h

theorem Core.client_of_role_server (hrole : s.cfg.role = .server) : s.client.state = .idle := by
  obtain ⟨-, -, -, hserver, -⟩ := h.sequence
  exact hserver hrole

theorem Core.role_of_client (hst : s.client.state ≠ .idle) : s.cfg.role = .client := by
  cases hrole : s.cfg.role with
  | client => rfl
  | server => exact absurd (h.client_of_role_server hrole) hst

/-- A listening client awaits its response (R57). -/
theorem Core.await_of_listening (hen : s.rx.en = true) (hrole : s.cfg.role = .client) : s.client.state = .await := by
  obtain ⟨-, -, -, -, -, -, -, hlisten⟩ := h.sequence
  obtain ⟨-, ⟨-, hst⟩ | ⟨hserver, -⟩⟩ := hlisten.1 hen
  · exact hst
  · exact Role.noConfusion (hrole.symm.trans hserver)

/-- A client that awaits a response does not transmit (R299). -/
theorem Core.quiet_of_await (hst : s.client.state = .await) : s.tx.active = false := by
  have hrole : s.cfg.role = .client := h.role_of_client (by simp [hst])
  obtain ⟨-, -, -, -, hclient, -, htx, -⟩ := h.sequence
  rw [← Bool.not_eq_true]
  intro hactive
  obtain hsend | hrespond := htx hactive
  · exact CState.noConfusion (hst.symm.trans hsend)
  · exact SState.noConfusion ((hclient hrole).symm.trans hrespond)

/-- The receiver is off while the block transmits (R165, R183). -/
theorem Core.off_of_active (hactive : s.tx.active = true) : s.rx.en = false := by
  obtain ⟨-, -, -, hserver, hclient, -, htx, hlisten⟩ := h.sequence
  rw [← Bool.not_eq_true]
  intro hen
  obtain ⟨-, ⟨hrole, hst⟩ | ⟨hrole, hst⟩⟩ := hlisten.1 hen
  · obtain hsend | hrespond := htx hactive
    · exact CState.noConfusion (hst.symm.trans hsend)
    · exact SState.noConfusion ((hclient hrole).symm.trans hrespond)
  · obtain hsend | hrespond := htx hactive
    · exact CState.noConfusion ((hserver hrole).symm.trans hsend)
    · exact SState.noConfusion (hst.symm.trans hrespond)

theorem Core.open_of_client (hst : s.client.state ≠ .idle) : s.isOpen = true := by
  obtain ⟨-, -, hclosed, -⟩ := h.sequence
  cases hopen : s.isOpen with
  | true => rfl
  | false => exact absurd (hclosed hopen).1 hst

/-- An open block's character and silence durations (R160 to R162). -/
theorem Core.t15_pos (hopen : s.isOpen = true) : 0 < s.cfg.t15.toNat ∧ s.cfg.t15.toNat < s.cfg.t35.toNat := by
  obtain ⟨-, -, hcb, ht15, ht35, -⟩ := h.cfg hopen
  have := charTicks_bounds s.cfg.parity s.cfg.stop2
  refine ⟨?_, ht35⟩
  rw [ht15, hcb]
  unfold t15Of
  omega

end

/-! ## Updates that leave the engines alone -/

section
variable {s : State}

/-- Registers other than `RESULT` and the windows are of no account to the invariant. -/
theorem Core.with_regs (h : Core s) (r : Regs) (hresult : r.result = s.regs.result)
    (hwin : cellsBelow r.win 125 = true) (hdswin : cellsBelow r.dswin 125 = true) : Core { s with regs := r } :=
  { h with
    inBounds := by
      obtain ⟨hcoils, hdi, hhr, hir, -, -, hrx, htx⟩ := h.inBounds
      exact ⟨hcoils, hdi, hhr, hir, hwin, hdswin, hrx, htx⟩
    pending := by
      rw [hresult]
      exact h.pending }

theorem Core.with_flags (h : Core s) (e : BitVec 5) : Core { s with regs := { s.regs with evt := e } } := by
  obtain ⟨-, -, -, -, hwin, hdswin, -⟩ := h.inBounds
  exact h.with_regs _ rfl hwin hdswin

/-- The result of an exchange that is over (R45). -/
theorem Core.with_result (h : Core s) (hidle : s.client.state = .idle) (r : Result) (hr : r.code ≠ .pending) :
    Core { s with regs := { s.regs with result := r } } :=
  { h with pending := ⟨fun hst => absurd hidle hst, fun hcode => absurd hcode hr⟩ }

theorem Settled.with_core {r : Regs} (h : Settled s) (hcore : Core { s with regs := r }) :
    Settled { s with regs := r } := ⟨hcore, h.rx, h.window⟩

/-! ## Bounds -/

theorem cellsBelow_storeRange {p : Params} {m m' : Memory} (h : StoresRange p m m')
    (hcoils : cellsBelow m.coils p.nCoils = true) (hdi : cellsBelow m.di p.nDi = true)
    (hhr : cellsBelow m.hr p.nHr = true) (hir : cellsBelow m.ir p.nIr = true) :
    cellsBelow m'.coils p.nCoils = true ∧ cellsBelow m'.di p.nDi = true ∧ cellsBelow m'.hr p.nHr = true ∧
      cellsBelow m'.ir p.nIr = true := by
  obtain ⟨a, vs, hrange, rfl⟩ | ⟨a, vs, hrange, rfl⟩ := h
  · exact ⟨cellsBelow_writeCells vs _ a _ hcoils hrange, hdi, hhr, hir⟩
  · exact ⟨hcoils, hdi, cellsBelow_writeCells vs _ a _ hhr hrange, hir⟩

/-- A server's function leaves the tables inside their sizes. -/
theorem Core.with_served {fc : Byte} {m : Memory} {r : Reply} (h : Core s) (hserves : Serves fc s.inst s.mem m r) :
    Core { s with mem := m } :=
  { h with
    inBounds := by
      obtain ⟨hcoils, hdi, hhr, hir, hrest⟩ := h.inBounds
      obtain ⟨-, rfl | ⟨-, -, hstore⟩⟩ := hserves
      · exact ⟨hcoils, hdi, hhr, hir, hrest⟩
      · obtain ⟨hcoils, hdi, hhr, hir⟩ := cellsBelow_storeRange hstore hcoils hdi hhr hir
        exact ⟨hcoils, hdi, hhr, hir, hrest⟩ }

/-- A matched response stays inside the window, the request being legal (R295, R302, R303). -/
theorem cellsBelow_matchedWin (p : Params) (q : Request) (fr : Frame) (win : Cells 16) (hq : reqValid p q = true)
    (h : cellsBelow win 125 = true) : cellsBelow (matchedWin q fr win) 125 = true := by
  obtain ⟨-, -, hbits, hregs, -⟩ := (reqValid_iff p q).1 hq
  unfold matchedWin storeResponse
  split_ifs with hexc hfc hfc'
  · exact h
  · have := hbits hfc
    exact cellsBelow_writeCells _ win 0 125 h (by simp [ceilDiv]; omega)
  · have := hregs hfc'
    exact cellsBelow_writeCells _ win 0 125 h (by simp; omega)
  · exact h

/-! ## The end of an exchange and its repetition -/

/-- An exchange resolves (R303, R306). -/
theorem settled_resolvedState (h : Core s) (hawait : s.client.state = .await) {r : Result} (hr : r.code ≠ .pending)
    (flags : BitVec 5) {win : Cells 16} (hwin : cellsBelow win 125 = true) :
    Settled (resolvedState r flags win s) := by
  have hrole : s.cfg.role = .client := h.role_of_client (by simp [hawait])
  have hopen : s.isOpen = true := h.open_of_client (by simp [hawait])
  have hquiet : s.tx.active = false := h.quiet_of_await hawait
  obtain ⟨hcoils, hdi, hhr, hir, -, hdswin, hrx, htx⟩ := h.inBounds
  obtain ⟨-, -, -, -, hclient, -⟩ := h.sequence
  have hlisten : s.sstate = .listen := hclient hrole
  refine ⟨⟨h.rstN, h.legal, ⟨hcoils, hdi, hhr, hir, hwin, hdswin, hrx, htx⟩, h.cfg, ?_, ?_, h.rxLen, ?_, ?_, ?_⟩,
    .of_off rfl, fun hst => CState.noConfusion hst⟩
  · simp [SequenceInv, hrole, hopen, hquiet, hlisten]
  · simp [TxInv, hquiet]
  · simp [hr]
  · simp
  · simp

/-- A request waits to be sent again, or is sent again at once (R306). -/
theorem settled_resendState (h : Core s) (hawait : s.client.state = .await) (hleft : s.client.retryLeft ≠ 0#8)
    (flags : BitVec 5) (start : Bool) : Settled (resendState flags start s) := by
  have hrole : s.cfg.role = .client := h.role_of_client (by simp [hawait])
  have hopen : s.isOpen = true := h.open_of_client (by simp [hawait])
  have hquiet : s.tx.active = false := h.quiet_of_await hawait
  obtain ⟨hreq, hretry⟩ := h.request (by simp [hawait])
  obtain ⟨-, hlen⟩ := h.tx
  obtain ⟨hmin, hmax⟩ := hlen (.inr (by simp [hawait]))
  obtain ⟨-, -, -, -, hclient, -⟩ := h.sequence
  have hlisten : s.sstate = .listen := hclient hrole
  have hpending : s.regs.result.code = .pending := h.pending.1 (by simp [hawait])
  refine ⟨⟨h.rstN, h.legal, ?_, h.cfg, ?_, ?_, h.rxLen, ?_, fun _ => ⟨hreq, ?_⟩, ?_⟩,
    .of_off rfl, fun hst => CState.noConfusion hst⟩
  · cases start <;> exact h.inBounds
  · cases start <;> simp [SequenceInv, hrole, hopen, hquiet, hlisten]
  · cases start <;> simp [TxInv, hquiet, hmin, hmax]
    omega
  · simp [hpending]
  · show (s.client.retryLeft - 1#8).toNat ≤ _
    bv_omega
  · simp

theorem settled_of_retriesOrFails {t : State} (h : Core s) (hawait : s.client.state = .await) {code : ResultCode}
    (hcode : code ≠ .pending) {k : Option FrameError} {flags : BitVec 5}
    (hout : RetriesOrFails code k flags s (.next t)) : Settled t := by
  obtain ⟨-, -, -, -, hwin, -⟩ := h.inBounds
  by_cases hleft : s.client.retryLeft = 0#8
  · cases hout.1 hleft
    exact settled_resolvedState h hawait hcode _ hwin
  · cases hout.2 hleft
    exact settled_resendState h hawait hleft _ _

theorem settled_timedOut (h : Core s) (hawait : s.client.state = .await) : Settled (timedOut s) :=
  settled_of_retriesOrFails h hawait (by decide) (timedOut_retriesOrFails s (h.quiet_of_await hawait))

theorem settled_crcError (k : FrameError) (h : Core s) (hawait : s.client.state = .await) : Settled (crcError k s) :=
  settled_of_retriesOrFails h hawait (by decide) (crcError_retriesOrFails k s (h.quiet_of_await hawait))

theorem matchedResult_code_ne_pending (q : Request) (c : Client) (fr : Frame) :
    (matchedResult q c fr).code ≠ .pending := by
  unfold matchedResult
  split <;> simp

theorem settled_matched (fr : Frame) (h : Core s) (hawait : s.client.state = .await) : Settled (matched fr s) := by
  obtain ⟨-, -, -, -, hwin, -⟩ := h.inBounds
  obtain ⟨hreq, -⟩ := h.request (by simp [hawait])
  exact settled_resolvedState h hawait (matchedResult_code_ne_pending s.client.rq s.client fr) evtDone
    (cellsBelow_matchedWin s.inst s.client.rq fr s.regs.win hreq hwin)

/-! ## The client on a tick -/

/-- A waiting frame is sent (R298). -/
theorem settled_clientTrySend (h : Settled s) : Settled (clientTrySend s) := by
  obtain ⟨hst, hquiet, -, heq⟩ | heq := clientTrySend_cases s <;> rw [heq]
  · have hrole : s.cfg.role = .client := h.core.role_of_client (by simp [hst])
    have hopen : s.isOpen = true := h.core.open_of_client (by simp [hst])
    obtain ⟨-, hlen⟩ := h.core.tx
    obtain ⟨hmin, hmax⟩ := hlen (.inr (by simp [hst]))
    obtain ⟨-, -, -, -, hclient, -⟩ := h.core.sequence
    have hlisten : s.sstate = .listen := hclient hrole
    have hpos : 0 < s.tx.len.toNat := by omega
    refine ⟨{ h.core with sequence := ?_, tx := ?_ }, .of_off rfl, h.window⟩
    · simp [SequenceInv, txStart, rxOff, hst, hrole, hopen, hlisten]
    · exact ⟨fun _ => hpos, fun _ => ⟨hmin, hmax⟩⟩
  · exact h

/-- The end of every tick and character closes a window that has run out, and the counters agree again (R300). -/
theorem settled_clientAfterChar (h : Core s) (hrx : RxTiming s) : Settled (clientAfterChar s) := by
  by_cases hwindow : WindowOpen s
  · rw [clientAfterChar_of_open s hwindow]
    exact ⟨h, hrx, hwindow⟩
  · unfold WindowOpen at hwindow
    obtain ⟨hawait, hclosed⟩ := Classical.not_imp.1 hwindow
    rw [clientAfterChar_of_closed s hawait (Nat.not_lt.1 hclosed)]
    exact settled_timedOut h hawait

theorem settled_clientTick (h : Core s) (hrx : RxTiming s) : Settled (clientTick s) :=
  settled_clientTrySend (settled_clientAfterChar h hrx)

/-! ## Frames -/

/-- A response takes the transmitter of a listening server (R333). -/
theorem core_sendResponse (h : Core s) (hopen : s.isOpen = true) (hrole : s.cfg.role = .server) (rfc : Byte) (rp : List Byte)
    (hlen : rp.length ≤ 251) : Core (sendResponse rfc rp s) := by
  have hidle : s.client.state = .idle := h.client_of_role_server hrole
  obtain ⟨hcoils, hdi, hhr, hir, hwin, hdswin, hrx, htx⟩ := h.inBounds
  have hframe : (sendResponse rfc rp s).tx.len.toNat = rp.length + 4 := by
    simp
    omega
  refine { h with inBounds := ⟨hcoils, hdi, hhr, hir, hwin, hdswin, hrx, ?_⟩, sequence := ?_, tx := ?_ }
  · exact cellsBelow_writeCells _ _ 0 256 htx (by simp; omega)
  · simp [SequenceInv, hidle, hopen, hrole]
  · exact ⟨fun _ => by rw [hframe]; simp, fun _ => by rw [hframe]; omega⟩

/-- The server listens again after a frame it does not answer (R334, R335). -/
theorem core_listen (h : Core s) (hopen : s.isOpen = true) (hrole : s.cfg.role = .server) (hen : s.rx.en = true) :
    Core { s with sstate := .listen } := by
  have hidle : s.client.state = .idle := h.client_of_role_server hrole
  have hquiet : s.tx.active = false := by
    rw [← Bool.not_eq_true]
    exact fun hactive => Bool.noConfusion (hen.symm.trans (h.off_of_active hactive))
  exact { h with sequence := by simp [SequenceInv, hidle, hopen, hrole, hen, hquiet] }

/-- The record of a request the server served (R333, R335). -/
theorem core_recordRequest {fc : Byte} {m : Memory} {r : Reply} (h : Core s) (hserves : Serves fc s.inst s.mem m r)
    (bcast : Bool) : Core (recordRequest fc r.exc bcast { s with mem := m }) := by
  obtain ⟨-, -, -, -, hwin, hdswin, -⟩ := h.inBounds
  exact (h.with_served hserves).with_regs _ rfl hwin hdswin

/-- The engine of the role takes a frame (R193). -/
theorem acceptFrame_core {addr fc : Byte} {p : List Byte} {run : PduFn} {t : State} (hfn : RouterFn fc run) (h : Core s)
    (hrx : RxTiming s) (haccept : acceptFrame addr fc p run s = .next t) : Core t ∧ RxTiming t := by
  obtain ⟨-, rfl⟩ | ⟨hl, hrole, hserver⟩ | ⟨hl, hrole, rfl⟩ := acceptFrame_next addr fc p run s t haccept
  · exact ⟨h, hrx⟩
  · obtain ⟨hopen, hen⟩ : s.isOpen = true ∧ s.rx.en = true := by simpa [State.listening] using hl
    obtain ⟨-, hrun⟩ | ⟨-, -, -, hrun⟩ | ⟨-, -, rfl⟩ := serverFrame_next addr fc run s t hserver
    · obtain ⟨m, r, hok, rfl⟩ := addressed_next fc run _ t hrun
      have hserves := hfn.serves hok
      have hrecord : Core (recordRequest fc r.exc false { s with mem := m }) := core_recordRequest h hserves false
      exact ⟨core_sendResponse hrecord hopen hrole r.fc r.payload hserves.1, .of_off rfl⟩
    · obtain ⟨-, -, m, r, hok, rfl⟩ | ⟨-, rfl⟩ := broadcast_next fc run _ t hrun
      · have hrecord : Core (recordRequest fc r.exc true { s with mem := m }) :=
          core_recordRequest h (hfn.serves hok) true
        have hcore := core_listen hrecord hopen hrole hen
        exact ⟨hcore, hrx⟩
      · have hcore := core_listen h hopen hrole hen
        exact ⟨hcore, hrx⟩
    · exact ⟨core_listen h hopen hrole hen, hrx⟩
  · obtain ⟨hopen, hen⟩ : s.isOpen = true ∧ s.rx.en = true := by simpa [State.listening] using hl
    have hawait := h.await_of_listening hen hrole
    unfold clientFrame
    split
    · exact ⟨h, hrx⟩
    · have := settled_crcError .badPdu h hawait
      exact ⟨this.core, this.rx⟩
    · have := settled_matched ⟨addr, fc, p⟩ h hawait
      exact ⟨this.core, this.rx⟩
    · have := settled_matched ⟨addr, fc, p⟩ h hawait
      exact ⟨this.core, this.rx⟩

end

end Sys2Proof.Machine
end

section
/-! PROOFS. What each event does to the two parts of the invariant, and the step lemma. -/

namespace Sys2Proof.Machine

/-! ## The end of a frame (R193) -/

section
variable {s t : State}

/-- In `RX_IDLE` the silence counter is free (R190). -/
theorem RxTiming.of_idle (h : s.rx.state = .idle) : RxTiming s := by
  intro _
  simp [h]

/-- The receiver changes its state or its buffer, but is not switched (R57). -/
theorem Core.with_rx (h : Core s) (r : Rx) (hen : r.en = s.rx.en) (hlen : r.len.toNat ≤ 256)
    (hbuf : cellsBelow r.buf 256 = true) : Core { s with rx := r } := by
  obtain ⟨hcoils, hdi, hhr, hir, hwin, hdswin, -, htx⟩ := h.inBounds
  obtain ⟨hclient, hserver, hclosed, hrs, hrc, hrespond, hactive, hlisten⟩ := h.sequence
  exact { h with
    inBounds := ⟨hcoils, hdi, hhr, hir, hwin, hdswin, hbuf, htx⟩
    sequence := ⟨hclient, hserver, hclosed, hrs, hrc, hrespond, hactive, hen ▸ hlisten⟩
    rxLen := hlen }

theorem Core.with_rxState (h : Core s) (st : RxState) : Core (setRxState st s) := by
  obtain ⟨-, -, -, -, -, -, hrx, -⟩ := h.inBounds
  exact h.with_rx _ rfl h.rxLen hrx

/-- The counters run. -/
theorem Core.with_counters (h : Core s) (sil elapsed : BitVec 32) :
    Core { s with sil := sil, client := { s.client with respElapsed := elapsed } } := { h with }

theorem core_serverFrameError (h : Core s) (k : FrameError) : Core (serverFrameError k s) := by
  obtain ⟨-, -, -, -, hwin, hdswin, -⟩ := h.inBounds
  exact h.with_regs _ rfl hwin hdswin

theorem frameEnd_core (h : Core s) (hen : s.rx.en = true) (hend : frameEnd s = .next t) : Core t ∧ RxTiming t := by
  have hidle : Core (setRxState .idle s) := h.with_rxState .idle
  cases hdec : decodeFrame s.rx.overrun s.rx.charErr s.rx.gap (rxFrame s) with
  | ok fr =>
    obtain ⟨run, hfn, haccept⟩ := frameEnd_routerFn s fr hdec
    exact acceptFrame_core hfn hidle (.of_idle rfl) (haccept.symm.trans hend)
  | error k =>
    cases hrole : s.cfg.role with
    | server =>
      cases (frameEnd_of_frameError_server s k hrole hdec).symm.trans hend
      exact ⟨core_serverFrameError hidle k, .of_idle rfl⟩
    | client =>
      cases (frameEnd_of_frameError_client s k hrole hdec).symm.trans hend
      have := settled_crcError k hidle (h.await_of_listening hen hrole)
      exact ⟨this.core, this.rx⟩

/-! ## Ticks and characters -/

/-- What is left of the receiver's timing once the tick is counted and the receiver has not moved yet (R190). -/
def RxTicked (s : State) : Prop :=
  s.rx.en = true →
    (s.rx.state = .recv → s.sil.toNat ≤ s.cfg.t15.toNat) ∧ (s.rx.state = .ctrlWait → s.cfg.t15.toNat ≤ s.sil.toNat)

/-- The counters' part of a tick (R190). -/
theorem settled_idleCounters (h : Settled s) : Core (idleCounters s) ∧ RxTicked (idleCounters s) := by
  rw [idleCounters_eq]
  refine ⟨h.core.with_counters _ _, fun hen => ?_⟩
  have hnext := silNext_toNat s.sil
  have ht15 := s.cfg.t15.isLt
  obtain ⟨-, hrecv, hwait⟩ := h.rx hen
  refine ⟨fun hst => ?_, fun hst => ?_⟩
  · have := hrecv hst
    show (silNext s.sil).toNat ≤ s.cfg.t15.toNat
    omega
  · obtain ⟨hmin, -⟩ := hwait hst
    show s.cfg.t15.toNat ≤ (silNext s.sil).toNat
    omega

/-- The receiver's part of a tick brings its state back in step with the silence counter (R190). -/
theorem idleReceiver_core (h : Core s) (hopen : s.isOpen = true) (hrx : RxTicked s) (hidle : idleReceiver s = .next t) :
    Core t ∧ RxTiming t := by
  by_cases hends : FrameEnds s.cfg s.sil.toNat s.rx
  · obtain ⟨hen, hst, hsil⟩ := hends
    exact frameEnd_core h hen ((idleReceiver_of_frameEnd s hen hst hsil).symm.trans hidle)
  · cases (idleReceiver_of_not_frameEnds s hends).symm.trans hidle
    refine ⟨h.with_rxState _, fun hen => ?_⟩
    have hen : s.rx.en = true := hen
    obtain ⟨hrecv, hwait⟩ := hrx hen
    obtain ⟨-, hlt⟩ := h.t15_pos hopen
    have hlate : s.rx.state = .ctrlWait → s.sil.toNat < s.cfg.t35.toNat := fun hst =>
      Nat.not_le.1 fun hsil => hends ⟨hen, hst, hsil⟩
    simp only [setRxState_rx, setRxState_sil, setRxState_cfg, rxTickState, hen, if_true]
    cases hst : s.rx.state with
    | init => split_ifs <;> simp <;> omega
    | idle => simp
    | recv =>
      have := hrecv hst
      split_ifs <;> simp <;> omega
    | ctrlWait => simp [hwait hst, hlate hst]

theorem idleTick_settled (h : Settled s) (htick : idleTick s = .next t) : Settled t := by
  obtain ⟨-, rfl⟩ | ⟨hfree, u, hrx, rfl⟩ := idleTick_next s t htick
  · exact h
  · obtain ⟨hopen, -⟩ : s.isOpen = true ∧ s.tx.active = false := by simpa [State.lineFree] using hfree
    obtain ⟨hcore, hticked⟩ := settled_idleCounters h
    have hopen' : (idleCounters s).isOpen = true := by rwa [idleCounters_eq]
    obtain ⟨hu, htiming⟩ := idleReceiver_core hcore hopen' hticked hrx
    exact settled_clientTick hu htiming

/-- A stored character leaves the buffer inside its 256 bytes (R191). -/
theorem storeChar_bounds (b : Byte) (err : Bool) (r : Rx) (hlen : r.len.toNat ≤ 256) (hbuf : cellsBelow r.buf 256 = true) :
    (storeChar b err r).len.toNat ≤ 256 ∧ cellsBelow (storeChar b err r).buf 256 = true := by
  by_cases hroom : r.len.toNat < 256
  · rw [storeChar_of_room b err r hroom]
    refine ⟨?_, cellsBelow_writeCell r.buf r.len.toNat 256 b hbuf hroom⟩
    show (r.len + 1#9).toNat ≤ 256
    bv_omega
  · rw [storeChar_of_full b err r (Nat.not_lt.1 hroom)]
    exact ⟨hlen, hbuf⟩

theorem storeChar_en (b : Byte) (err : Bool) (r : Rx) : (storeChar b err r).en = r.en := by
  unfold storeChar
  split <;> rfl

/-- A character leaves a listening receiver receiving, whatever it was (R191). -/
theorem rxTake_bounds (b : Byte) (err : Bool) (r : Rx) (hlen : r.len.toNat ≤ 256) (hbuf : cellsBelow r.buf 256 = true) :
    (rxTake b err r).en = r.en ∧ (rxTake b err r).len.toNat ≤ 256 ∧ cellsBelow (rxTake b err r).buf 256 = true := by
  have hstore := storeChar_bounds b err
  unfold rxTake
  split
  · split
    · exact ⟨rfl, hlen, hbuf⟩
    · exact ⟨storeChar_en b err _, hstore _ (Nat.zero_le _) hbuf⟩
    · exact ⟨storeChar_en b err r, hstore r hlen hbuf⟩
    · exact ⟨storeChar_en b err _, hstore _ hlen hbuf⟩
  · exact ⟨rfl, hlen, hbuf⟩

theorem storeChar_state (b : Byte) (err : Bool) (r : Rx) : (storeChar b err r).state = r.state := by
  unfold storeChar
  split <;> rfl

/-- After a character no frame is waiting for its last silence (R191). -/
theorem rxTake_state_ne_ctrlWait (b : Byte) (err : Bool) (r : Rx) (hen : r.en = true) :
    (rxTake b err r).state ≠ .ctrlWait := by
  unfold rxTake
  rw [if_pos hen]
  split <;> simp_all [storeChar_state]

theorem rxChar_settled (b : Byte) (err : Bool) (h : Settled s) (hchar : rxChar b err s = .next t) : Settled t := by
  obtain ⟨-, rfl⟩ | ⟨hfree, rfl⟩ := rxChar_next b err s t hchar
  · exact h
  · obtain ⟨hopen, -⟩ : s.isOpen = true ∧ s.tx.active = false := by simpa [State.lineFree] using hfree
    obtain ⟨-, -, -, -, -, -, hbuf, -⟩ := h.core.inBounds
    obtain ⟨hen, hlen, hbuf'⟩ := rxTake_bounds b err s.rx h.core.rxLen hbuf
    obtain ⟨hpos, hlt⟩ := h.core.t15_pos hopen
    rw [advanceTimer_eq]
    refine settled_clientAfterChar ((h.core.with_counters 0#32 _).with_rx _ hen hlen hbuf') fun henabled => ?_
    refine ⟨fun _ => Nat.lt_trans hpos hlt, fun _ => hpos, fun hst => ?_⟩
    exact absurd hst (rxTake_state_ne_ctrlWait b err s.rx (hen.symm.trans henabled))

/-! ## The transmitter (R186) -/

/-- A character other than the last leaves a whole frame in the transmitter. -/
theorem settled_sentChar (h : Settled s) (hactive : s.tx.active = true) (hlast : s.tx.idx + 1#9 ≠ s.tx.len) :
    Settled (sentChar s) := by
  obtain ⟨hidx, hlen⟩ := h.core.tx
  have hbefore := hidx hactive
  have hafter : (s.tx.idx + 1#9).toNat < s.tx.len.toNat := by bv_omega
  exact ⟨{ h.core with tx := ⟨fun _ => hafter, hlen⟩ }, .of_off (h.core.off_of_active hactive), h.window⟩

/-- The server listens again after its response (R336). -/
theorem settled_serverTxDone (h : Settled s) (hopen : s.isOpen = true) (hrole : s.cfg.role = .server) :
    Settled (serverTxDone (sentLast s)) := by
  have hidle := h.core.client_of_role_server hrole
  refine ⟨{ h.core with sequence := ?_, tx := ?_, rxLen := Nat.zero_le _ }, .of_idle rfl, h.window⟩
  · simp [SequenceInv, sentLast, sentChar, hidle, hopen, hrole]
  · simp [TxInv, sentLast, sentChar, hidle]

/-- The client waits for its response, or is done with a broadcast (R299). -/
theorem settled_clientTxDone (h : Settled s) (hopen : s.isOpen = true) (hrole : s.cfg.role = .client)
    (hsending : s.client.state = .sending) : Settled (clientTxDone (sentLast s)) := by
  obtain ⟨-, -, -, -, hclient, -, -, hlisten⟩ := h.core.sequence
  have hserver : s.sstate = .listen := hclient hrole
  obtain ⟨-, hlen⟩ := h.core.tx
  obtain ⟨hmin, hmax⟩ := hlen (.inr (by simp [hsending]))
  have hpending : s.regs.result.code = .pending := h.core.pending.1 (by simp [hsending])
  have hoff : s.rx.en = false := by simpa [hopen, hrole, hsending] using hlisten
  by_cases hunit : s.client.rq.unit = 0#8
  · rw [clientTxDone_of_broadcast (sentLast s) hunit]
    refine ⟨⟨h.core.rstN, h.core.legal, h.core.inBounds, h.core.cfg, ?_, ?_, h.core.rxLen, ?_, ?_, ?_⟩, .of_off hoff, ?_⟩
    · simp [SequenceInv, sentLast, sentChar, hopen, hrole, hserver, hoff]
    · simp [TxInv, sentLast]
    · simp
    · simp
    · simp
    · simp [WindowOpen]
  · rw [clientTxDone_of_addressed (sentLast s) hunit]
    obtain ⟨-, -, -, -, -, -, htmo, -⟩ := h.core.cfg hopen
    have hrequest := h.core.request (by simp [hsending])
    refine ⟨⟨h.core.rstN, h.core.legal, h.core.inBounds, h.core.cfg, ?_, ?_, Nat.zero_le _, ?_, ?_, ?_⟩, .of_idle rfl, ?_⟩
    · simp [SequenceInv, sentLast, sentChar, hopen, hrole, hserver]
    · simp [TxInv, sentLast, hmin, hmax]
    · exact ⟨fun _ => hpending, fun _ hst => CState.noConfusion hst⟩
    · exact fun _ => hrequest
    · exact fun _ => hunit
    · exact fun _ => htmo hrole

theorem txChar_settled (h : Settled s) (hchar : txChar s = .next t) : Settled t := by
  obtain ⟨-, rfl⟩ | ⟨htrans, hlast, -⟩ | ⟨htrans, hlast, rfl⟩ := txChar_next s t hchar
  · exact h
  · obtain ⟨hopen, hactive⟩ : s.isOpen = true ∧ s.tx.active = true := by simpa [State.transmitting] using htrans
    cases (txChar_of_last s hopen hactive hlast).symm.trans hchar
    obtain ⟨-, -, -, -, hclient, -, hsends, -⟩ := h.core.sequence
    cases hrole : s.cfg.role with
    | server =>
      rw [txDone_of_server (sentLast s) hrole]
      exact settled_serverTxDone h hopen hrole
    | client =>
      rw [txDone_of_client (sentLast s) hrole]
      obtain hsending | hrespond := hsends hactive
      · exact settled_clientTxDone h hopen hrole hsending
      · exact SState.noConfusion (hrespond.symm.trans (hclient hrole))
  · obtain ⟨-, hactive⟩ : s.isOpen = true ∧ s.tx.active = true := by simpa [State.transmitting] using htrans
    exact settled_sentChar h hactive hlast

/-! ## The host's events -/

/-- In a legal configuration the shorter silence is the shorter one (R151). -/
theorem t15Of_lt_t35Of {r : Regs} (h : OpenLegal r) : t15Of (lineTicks r.line) < t35Of r.ift.toNat (lineTicks r.line) := by
  obtain ⟨-, -, -, hift, -⟩ := h
  obtain ⟨hlow, -⟩ : 10 ≤ lineTicks r.line ∧ lineTicks r.line ≤ 12 := charTicks_bounds _ _
  unfold t35Of
  split
  · unfold t15Of
    omega
  · obtain hzero | hlt := hift
    · simp_all
    · exact hlt

/-- The configuration a legal `OPEN` latches (R151, R160 to R163, R364). -/
theorem cfgInv_latched {r : Regs} (h : OpenLegal r) (hcfg : s.cfg = latchedCfg r) : CfgInv s := by
  intro _
  have hlt := t15Of_lt_t35Of h
  obtain ⟨hbaud, -, hparity, -, hunit, htimeout⟩ := h
  obtain ⟨hcb, ht15, ht35, htmo⟩ := latchedCfg_toNat r
  rw [hcfg]
  refine ⟨hbaud, hparity, hcb, ht15.trans (congrArg t15Of hcb.symm), ?_, fun hrole => hunit ((modeRole_eq_server _).1 hrole),
    fun hrole => ?_, htmo ▸ tmoOf_le r.timeoutMs r.baud⟩
  · rwa [ht15, ht35]
  · have hms : 1 ≤ r.timeoutMs.toNat := by
      have := htimeout ((modeRole_eq_client _).1 hrole)
      bv_omega
    have hrate : 1 ≤ r.baud.toNat := by bv_omega
    have hmul : 1 ≤ r.timeoutMs.toNat * r.baud.toNat := Nat.mul_pos hms hrate
    rw [htmo, tmoOf]
    omega

/-- A session starts (R364). -/
theorem settled_opened (h : Settled s) (hclosed : s.isOpen = false) (hlegal : OpenLegal s.regs) : Settled (opened s) := by
  obtain ⟨-, -, hidle, -⟩ := h.core.sequence
  obtain ⟨hclient, -, -⟩ := hidle hclosed
  have hresult : s.regs.result.code ≠ .pending := fun hcode => h.core.pending.2 hcode hclient
  cases hrole : modeRole s.regs.mode with
  | server =>
    have heq : opened s = rxArm .init _ := sessionRx_of_server _ hrole
    rw [heq]
    refine ⟨⟨h.core.rstN, h.core.legal, h.core.inBounds, cfgInv_latched hlegal rfl, ?_, ?_, Nat.zero_le _, ?_, ?_, ?_⟩,
      fun _ => ⟨fun _ => ?_, fun hst => RxState.noConfusion hst, fun hst => RxState.noConfusion hst⟩,
      fun hst => CState.noConfusion hst⟩
    · have hserver : (latchedCfg s.regs).role = .server := hrole
      simp [SequenceInv, hserver]
    · simp [TxInv]
    · simp [hresult]
    · simp
    · simp
    · obtain ⟨-, -, ht35, -⟩ := latchedCfg_toNat s.regs
      have := t15Of_lt_t35Of hlegal
      show 0 < (latchedCfg s.regs).t35.toNat
      omega
  | client =>
    have heq : opened s = _ := sessionRx_of_client _ hrole
    rw [heq]
    refine ⟨⟨h.core.rstN, h.core.legal, h.core.inBounds, cfgInv_latched hlegal rfl, ?_, ?_, Nat.zero_le _, ?_, ?_, ?_⟩,
      .of_off rfl, fun hst => CState.noConfusion hst⟩
    · have hclient : (latchedCfg s.regs).role = .client := hrole
      simp [SequenceInv, hclient]
    · simp [TxInv]
    · simp [hresult]
    · simp
    · simp

theorem execOpen_settled (h : Settled s) (hexec : execOpen s = .next t) : Settled t := by
  cases hopen : s.isOpen with
  | true =>
    cases (execOpen_of_open s hopen).symm.trans hexec
    exact h.with_core (h.core.with_flags _)
  | false =>
    by_cases hlegal : OpenLegal s.regs
    · cases (execOpen_of_legal s hopen hlegal).symm.trans hexec
      exact settled_opened h hopen hlegal
    · cases (execOpen_of_illegal s hopen hlegal).symm.trans hexec
      obtain ⟨-, -, -, -, hwin, hdswin, -⟩ := h.core.inBounds
      exact h.with_core (h.core.with_regs _ rfl hwin hdswin)

/-- A closed block is at rest, whatever its registers hold (R365). -/
theorem settled_lineOff (h : Settled s) (r : Regs) (hresult : r.result.code ≠ .pending)
    (hwin : cellsBelow r.win 125 = true) (hdswin : cellsBelow r.dswin 125 = true) :
    Settled { setCState .idle { lineOff s with regs := r } with sstate := .listen } := by
  obtain ⟨hcoils, hdi, hhr, hir, -, -, hrx, htx⟩ := h.core.inBounds
  refine ⟨⟨h.core.rstN, h.core.legal, ⟨hcoils, hdi, hhr, hir, hwin, hdswin, hrx, htx⟩, fun hopen => Bool.noConfusion hopen,
    ?_, ?_, Nat.zero_le _, ?_, ?_, ?_⟩, .of_off rfl, fun hst => CState.noConfusion hst⟩
  · simp [SequenceInv, lineOff]
  · simp [TxInv, lineOff]
  · simp [hresult]
  · simp
  · simp

/-- A session ends, and with it the exchange in flight (R365). -/
theorem execClose_settled (h : Settled s) (hexec : execClose s = .next t) : Settled t := by
  unfold execClose at hexec
  split_ifs at hexec with hopen <;> cases hexec
  · obtain ⟨-, -, -, -, hwin, hdswin, -⟩ := h.core.inBounds
    by_cases hidle : s.client.state = .idle
    · have hresult : s.regs.result.code ≠ .pending := fun hcode => h.core.pending.2 hcode hidle
      rw [abortExchange_of_idle (s := lineOff s) hidle]
      exact settled_lineOff h s.regs hresult hwin hdswin
    · rw [abortExchange_of_inFlight (s := lineOff s) hidle]
      exact settled_lineOff h _ (by simp) hwin hdswin
  · exact h

/-- An exchange starts (R296). -/
theorem settled_requestLoaded (q : Request) (h : Settled s) (hopen : s.isOpen = true) (hrole : s.cfg.role = .client)
    (hidle : s.client.state = .idle) (hq : RequestLegal s.inst q) : Settled (requestLoaded q s) := by
  obtain ⟨-, -, -, -, hclient, -, hactive, hlisten⟩ := h.core.sequence
  have hserver : s.sstate = .listen := hclient hrole
  have hquiet : s.tx.active = false := by
    rw [← Bool.not_eq_true]
    intro hsends
    simpa [hidle, hserver] using hactive hsends
  have hoff : s.rx.en = false := by simpa [hopen, hrole, hidle] using hlisten
  have hlen := buildRequest_length s.inst s.regs.win q hq
  obtain ⟨hcoils, hdi, hhr, hir, hwin, hdswin, hrx, htx⟩ := h.core.inBounds
  have hbuf : cellsBelow (requestLoaded q s).tx.buf 256 = true :=
    cellsBelow_writeCells _ _ 0 256 htx (by simp; omega)
  have htxlen : (requestLoaded q s).tx.len.toNat = (buildRequest s.regs.win q).length + 4 := by
    simp [requestLoaded]
    omega
  refine ⟨⟨h.core.rstN, h.core.legal, ⟨hcoils, hdi, hhr, hir, hwin, hdswin, hrx, hbuf⟩, h.core.cfg, ?_, ?_, h.core.rxLen, ?_,
    fun _ => ⟨(reqValid_iff _ _).2 hq, Nat.le_refl _⟩, fun hst => CState.noConfusion hst⟩, .of_off hoff,
    fun hst => CState.noConfusion hst⟩
  · simp [SequenceInv, requestLoaded, hopen, hrole, hserver, hquiet, hoff]
  · refine ⟨fun hsends => ?_, fun _ => ?_⟩
    · exact Bool.noConfusion (hquiet.symm.trans hsends)
    · omega
  · simp [requestLoaded]

theorem execGo_settled (h : Settled s) (hexec : execGo s = .next t) : Settled t := by
  obtain ⟨-, -, hclosed, -⟩ := h.core.sequence
  unfold execGo at hexec
  split_ifs at hexec with hopen hbusy hq <;> cases hexec
  · obtain ⟨hidle, -⟩ := hclosed hopen
    have hover := h.core.with_result hidle ⟨.transportError, none, 0#8, 0#8⟩ (by simp)
    obtain ⟨-, -, -, -, hwin, hdswin, -⟩ := h.core.inBounds
    have hcore := hover.with_regs (transportError .notOpen (finish ⟨.transportError, none, 0#8, 0#8⟩ s)).regs rfl hwin hdswin
    exact ⟨hcore, h.rx, h.window⟩
  · exact h.with_core (h.core.with_flags _)
  · obtain ⟨hclient, hidle⟩ := not_or.1 hbusy
    have hrole : s.cfg.role = .client := by
      cases hr : s.cfg.role with
      | client => rfl
      | server => exact absurd hr hclient
    rw [startExchange_eq]
    exact settled_clientTrySend (settled_requestLoaded _ h (by simpa using hopen) hrole (not_not.1 hidle)
      ((reqValid_iff _ _).1 hq))
  · obtain ⟨-, hidle⟩ := not_or.1 hbusy
    have hover := h.core.with_result (not_not.1 hidle) ⟨.rejected, none, 0#8, 0#8⟩ (by simp)
    obtain ⟨-, -, -, -, hwin, hdswin, -⟩ := h.core.inBounds
    have hcore := hover.with_regs (State.setEvt evtCmdrej (finish ⟨.rejected, none, 0#8, 0#8⟩ s)).regs rfl hwin hdswin
    exact ⟨hcore, h.rx, h.window⟩

/-- The host's window into the tables stays inside them (R370). -/
theorem cellsBelow_withBitCells (m : Memory) (b : BitTable) (c : Cells 1) (p : Params)
    (hm : cellsBelow m.coils p.nCoils = true ∧ cellsBelow m.di p.nDi = true) (hc : cellsBelow c (bitSize p b) = true) :
    cellsBelow (withBitCells m b c).coils p.nCoils = true ∧ cellsBelow (withBitCells m b c).di p.nDi = true := by
  obtain ⟨hcoils, hdi⟩ := hm
  cases b with
  | coils => exact ⟨hc, hdi⟩
  | di => exact ⟨hcoils, hc⟩

theorem cellsBelow_bitCells (m : Memory) (b : BitTable) (p : Params)
    (hm : cellsBelow m.coils p.nCoils = true ∧ cellsBelow m.di p.nDi = true) :
    cellsBelow (bitCells m b) (bitSize p b) = true := by
  cases b with
  | coils => exact hm.1
  | di => exact hm.2

theorem cellsBelow_withRegCells (m : Memory) (b : RegTable) (c : Cells 16) (p : Params)
    (hm : cellsBelow m.hr p.nHr = true ∧ cellsBelow m.ir p.nIr = true) (hc : cellsBelow c (regSize p b) = true) :
    cellsBelow (withRegCells m b c).hr p.nHr = true ∧ cellsBelow (withRegCells m b c).ir p.nIr = true := by
  obtain ⟨hhr, hir⟩ := hm
  cases b with
  | hr => exact ⟨hc, hir⟩
  | ir => exact ⟨hhr, hc⟩

theorem cellsBelow_regCells (m : Memory) (b : RegTable) (p : Params)
    (hm : cellsBelow m.hr p.nHr = true ∧ cellsBelow m.ir p.nIr = true) :
    cellsBelow (regCells m b) (regSize p b) = true := by
  cases b with
  | hr => exact hm.1
  | ir => exact hm.2

theorem withBitCells_regTables (m : Memory) (b : BitTable) (c : Cells 1) :
    (withBitCells m b c).hr = m.hr ∧ (withBitCells m b c).ir = m.ir := by
  cases b <;> exact ⟨rfl, rfl⟩

theorem withRegCells_bitTables (m : Memory) (b : RegTable) (c : Cells 16) :
    (withRegCells m b c).coils = m.coils ∧ (withRegCells m b c).di = m.di := by
  cases b <;> exact ⟨rfl, rfl⟩

theorem execDsgo_settled (h : Settled s) (hexec : execDsgo s = .next t) : Settled t := by
  obtain ⟨hcoils, hdi, hhr, hir, hwin, hdswin, hrx, htx⟩ := h.core.inBounds
  obtain ⟨u, hu, hcases⟩ := execDsgo_outcome s
  cases hu.symm.trans hexec
  obtain rfl | ⟨v, hlen, rfl⟩ | ⟨b, a, vs, hrange, rfl⟩ | ⟨b, a, vs, hrange, rfl⟩ := hcases
  · exact h.with_core (h.core.with_regs _ rfl hwin hdswin)
  · exact h.with_core (h.core.with_regs _ rfl hwin (cellsBelow_writeCells v _ 0 125 hdswin (by omega)))
  · have hstored := cellsBelow_writeCells vs _ a _ (cellsBelow_bitCells s.mem b s.inst ⟨hcoils, hdi⟩) hrange
    obtain ⟨hcoils', hdi'⟩ := cellsBelow_withBitCells s.mem b _ s.inst ⟨hcoils, hdi⟩ hstored
    obtain ⟨hhr', hir'⟩ := withBitCells_regTables s.mem b (writeCells (bitCells s.mem b) a vs)
    refine ⟨{ h.core with inBounds := ⟨hcoils', hdi', ?_, ?_, hwin, hdswin, hrx, htx⟩ }, h.rx, h.window⟩
    · exact hhr'.symm ▸ hhr
    · exact hir'.symm ▸ hir
  · have hstored := cellsBelow_writeCells vs _ a _ (cellsBelow_regCells s.mem b s.inst ⟨hhr, hir⟩) hrange
    obtain ⟨hhr', hir'⟩ := cellsBelow_withRegCells s.mem b _ s.inst ⟨hhr, hir⟩ hstored
    obtain ⟨hcoils', hdi'⟩ := withRegCells_bitTables s.mem b (writeCells (regCells s.mem b) a vs)
    refine ⟨{ h.core with inBounds := ⟨?_, ?_, hhr', hir', hwin, hdswin, hrx, htx⟩ }, h.rx, h.window⟩
    · exact hcoils'.symm ▸ hcoils
    · exact hdi'.symm ▸ hdi

/-- Every instruction keeps the invariant: the host's at once, a frame up to the client's tick. -/
theorem exec_settled_of_host (i : Instr) (hi : frameOf i = none) (h : Settled s) (hexec : exec i s = .next t) :
    Settled t := by
  obtain ⟨-, -, -, -, hwin, hdswin, -⟩ := h.core.inBounds
  cases i with
  | openCmd => exact execOpen_settled h hexec
  | closeCmd => exact execClose_settled h hexec
  | goCmd => exact execGo_settled h hexec
  | dsgoCmd => exact execDsgo_settled h hexec
  | crcInit | crcDataWrite b =>
    cases hexec
    exact h.with_core (h.core.with_regs _ rfl hwin hdswin)
  | evtClear m =>
    cases hexec
    exact h.with_core (h.core.with_flags _)
  | _ => cases hi

theorem execAll_settled (l : List Instr) (hl : ∀ i ∈ l, frameOf i = none) (h : Settled s)
    (hexec : execAll l s = .next t) : Settled t := by
  induction l generalizing s with
  | nil =>
    cases hexec
    exact h
  | cons i r ih =>
    obtain ⟨u, hfirst, hrest⟩ := (execAll_cons_next i r s t).1 hexec
    have hu := exec_settled_of_host i (hl i List.mem_cons_self) h hfirst
    exact ih (fun j hj => hl j (List.mem_cons_of_mem i hj)) hu hrest

theorem frameOf_eq_none_of_decodeCsr (n : Nat) (v : Reg) (l : List Instr) (h : decodeCsr n v = .ok l) (i : Instr)
    (hi : i ∈ l) : frameOf i = none := by
  unfold decodeCsr at h
  split_ifs at h <;> cases h
  · unfold decodeCtrl at hi
    simp only [List.mem_append, List.mem_ite_nil_right, List.mem_singleton] at hi
    obtain (((⟨-, rfl⟩ | ⟨-, rfl⟩) | ⟨-, rfl⟩) | ⟨-, rfl⟩) | ⟨-, rfl⟩ := hi <;> rfl
  · cases List.mem_singleton.1 hi
    rfl
  · cases List.mem_singleton.1 hi
    rfl

theorem writeReg_result (n : Nat) (v : Reg) (r : Regs) : (writeReg n v r).result = r.result := by
  unfold writeReg
  split
  case h_13 => split_ifs <;> rfl
  all_goals rfl

/-- The register numbers of the two windows (R31). -/
theorem isWin_iff (n : Nat) : isWin n = true ↔ 0x100 ≤ n ∧ n < 0x17D := by
  unfold isWin
  rw [Bool.and_eq_true, decide_eq_true_iff, decide_eq_true_iff]
  rfl

theorem isDswin_iff (n : Nat) : isDswin n = true ↔ 0x200 ≤ n ∧ n < 0x27D := by
  unfold isDswin
  rw [Bool.and_eq_true, decide_eq_true_iff, decide_eq_true_iff]
  rfl

theorem cellsBelow_writeReg (n : Nat) (v : Reg) (r : Regs) (hwin : cellsBelow r.win 125 = true)
    (hdswin : cellsBelow r.dswin 125 = true) :
    cellsBelow (writeReg n v r).win 125 = true ∧ cellsBelow (writeReg n v r).dswin 125 = true := by
  unfold writeReg
  split
  case h_13 =>
    split_ifs with hw hd
    · have hn := (isWin_iff n).1 hw
      exact ⟨cellsBelow_writeCell _ _ _ _ hwin (by omega), hdswin⟩
    · have hn := (isDswin_iff n).1 hd
      exact ⟨hwin, cellsBelow_writeCell _ _ _ _ hdswin (by omega)⟩
    · exact ⟨hwin, hdswin⟩
  all_goals exact ⟨hwin, hdswin⟩

theorem csrWrite_settled (n : Nat) (v : Reg) (h : Settled s) (hwrite : csrWrite n v s = .next t) : Settled t := by
  obtain ⟨l, hl, hrun⟩ | ⟨r, -, rfl⟩ := csrWrite_next n v s t hwrite
  · exact execAll_settled l (frameOf_eq_none_of_decodeCsr n v l hl) h hrun
  · obtain ⟨-, -, -, -, hwin, hdswin, -⟩ := h.core.inBounds
    obtain ⟨hwin', hdswin'⟩ := cellsBelow_writeReg n v s.regs hwin hdswin
    exact h.with_core (h.core.with_regs _ (writeReg_result n v s.regs) hwin' hdswin')

/-! ## Every event -/

/-- The reset state of legal parameters meets the invariant, `rst_n` being high or low (R58, R440). -/
theorem inv_resetOf (p : Params) (hp : Config.legal p = true) (level : Bool) (inputs : List Event) :
    Inv { State.resetOf p with rstN := level, inputs := inputs } where
  legal := hp
  canonical := canonical_resetOf p
  inBounds := ⟨rfl, rfl, rfl, rfl, rfl, rfl, rfl, rfl⟩
  cfg := fun hopen => Bool.noConfusion hopen
  sequence := by simp [SequenceInv, State.resetOf, Client.reset, Tx.reset, Rx.reset, Cfg.reset]
  tx := by simp [TxInv, State.resetOf, Client.reset, Tx.reset]
  rx := by simp [RxInv, State.resetOf, Rx.reset]
  exchange := by simp [ExchangeInv, State.resetOf, Client.reset, Regs.reset, Result.reset]
  held := by
    intro hlow
    cases level with
    | true => exact Bool.noConfusion hlow
    | false => rfl

/-- Taking the event off the list keeps the invariant: a block held in reset stays as it is (R440). -/
theorem Inv.taken (h : Inv s) (rest : List Event) : Inv (s.taken rest) :=
  { h with held := fun hlow => congrArg (State.taken rest) (h.held hlow) }

/-- While `rst_n` is high every event but `Reset` keeps both parts. -/
theorem handle_settled (e : Event) (he : e ≠ .reset) (h : Settled s) (hhandle : handle e s = .next t) : Settled t := by
  have hrst := h.core.rstN
  cases e with
  | reset => exact absurd rfl he
  | rstRise =>
    cases hhandle
    exact ⟨{ h.core with rstN := rfl }, h.rx, h.window⟩
  | csrWrite n v => exact csrWrite_settled n v h ((if_pos hrst).symm.trans hhandle)
  | csrRead n =>
    cases (if_pos hrst).symm.trans hhandle
    exact ⟨{ h.core with }, h.rx, h.window⟩
  | idleTick => exact idleTick_settled h ((if_pos hrst).symm.trans hhandle)
  | rxChar b err => exact rxChar_settled b err h ((if_pos hrst).symm.trans hhandle)
  | rxLine samples => exact rxChar_settled _ _ h ((if_pos hrst).symm.trans hhandle)
  | txChar => exact txChar_settled h ((if_pos hrst).symm.trans hhandle)

/-- While `rst_n` is low only its rise and `Reset` do anything (R440). -/
theorem handle_inv_of_held (e : Event) (h : Inv s) (hrst : s.rstN = false) (hhandle : handle e s = .next t) : Inv t := by
  have hmasked : ∀ {o : Host.Outcome State Fault Refusal}, (if s.rstN then o else .next s) = .next t → t = s := by
    intro o ho
    rw [hrst] at ho
    cases ho
    rfl
  cases e with
  | reset =>
    cases hhandle
    exact inv_resetOf s.inst h.legal false s.inputs
  | rstRise =>
    cases hhandle
    exact { h with held := fun hlow => Bool.noConfusion hlow }
  | csrWrite n v => cases hmasked hhandle; exact h
  | csrRead n => cases hmasked hhandle; exact h
  | idleTick => cases hmasked hhandle; exact h
  | rxChar b err => cases hmasked hhandle; exact h
  | rxLine samples => cases hmasked hhandle; exact h
  | txChar => cases hmasked hhandle; exact h

/-- Handling an event keeps the invariant. -/
theorem handle_inv (e : Event) (h : Inv s) (hhandle : handle e s = .next t) : Inv t := by
  cases hrst : s.rstN with
  | false => exact handle_inv_of_held e h hrst hhandle
  | true =>
    by_cases he : e = .reset
    · subst he
      cases hhandle
      exact inv_resetOf s.inst h.legal false s.inputs
    · exact (handle_settled e he (.of_inv h hrst) hhandle).inv (handle_canonical e h.canonical hhandle)

end

end Sys2Proof.Machine

open Sys2Proof Sys2Proof.Machine

/-- Settles O42: every clause of the invariant is read off the reset values. -/
theorem resetMeetsTheInvariant : Obligations.ResetMeetsTheInvariant :=
  fun p hp => inv_resetOf p hp true []

/-- Settles O43: the event is taken off the list, and handling it keeps the invariant: inside the event the part `Core` holds
throughout, and the receiver and the client bring the counters' clauses back at its end. -/
theorem stepKeepsTheInvariant : Obligations.StepKeepsTheInvariant := by
  intro s t hs hstep
  obtain ⟨e, rest, -, hhandle⟩ | ⟨-, hhandle⟩ := step_next s t hstep
  · exact handle_inv e (hs.taken rest) hhandle
  · exact handle_inv .txChar (hs.taken []) hhandle

end

section
/-! PROOFS. What a waiting client makes of a frame (46_client_fsm.md R301 to R306), and the ticks that end it. -/

namespace Sys2Proof.Machine

/-! ## The class of a frame (R302) -/

section
variable {q : Request} {tx : Cells 8} {fr : Frame}

/-- A frame of another unit, or of a function code that answers nothing. -/
theorem classify_of_other (h : fr.addr ≠ q.unit ∨ (fr.fc ≠ q.fc ∧ fr.fc ≠ q.fc ||| 0x80#8)) :
    classify q tx fr = .ignore := by
  by_cases haddr : fr.addr = q.unit
  · obtain ⟨hfc, hexc⟩ : fr.fc ≠ q.fc ∧ fr.fc ≠ excFc q.fc := h.resolve_left (not_not.2 haddr)
    rw [classify, if_neg (not_not.2 haddr), if_neg hexc, if_pos hfc]
  · exact if_pos haddr

theorem classify_of_exception (haddr : fr.addr = q.unit) (hfc : fr.fc = excFc q.fc) :
    classify q tx fr = if fr.payload.length = 1 then .exception else .bad := by
  rw [classify, if_neg (not_not.2 haddr), if_pos hfc]

/-- A request's function code has bit 7 clear, so no normal response looks like an exception response. -/
theorem ne_excFc_of_request {fc : Byte} (h : fc = 0x01#8 ∨ fc = 0x02#8 ∨ fc = 0x03#8 ∨ fc = 0x04#8 ∨ fc = 0x05#8 ∨
    fc = 0x06#8 ∨ fc = 0x0F#8 ∨ fc = 0x10#8) : fc ≠ excFc fc := by
  obtain rfl | rfl | rfl | rfl | rfl | rfl | rfl | rfl := h <;> decide

theorem normalIf_and (P Q : Prop) [Decidable P] [Decidable Q] :
    normalIf (decide P && decide Q) = if P ∧ Q then .normal else .bad := by
  by_cases hP : P <;> by_cases hQ : Q <;> simp [normalIf, hP, hQ]

variable (haddr : fr.addr = q.unit) (hfc : fr.fc = q.fc)
include haddr hfc

theorem classify_of_bitRead (h : fr.fc = 0x01#8 ∨ fr.fc = 0x02#8) : classify q tx fr =
    if fr.payload.length = 1 + (q.arg.toNat + 7) / 8 ∧ (fr.payload.getD 0 0#8).toNat = (q.arg.toNat + 7) / 8 then .normal
    else .bad := by
  have hne : fr.fc ≠ excFc q.fc := hfc ▸ ne_excFc_of_request (by tauto)
  rw [classify, if_neg (not_not.2 haddr), if_neg hne, if_neg (not_not.2 hfc), if_pos (hfc ▸ h), normalIf_and,
    ceilDiv_eight]

theorem classify_of_registerRead (h : fr.fc = 0x03#8 ∨ fr.fc = 0x04#8) : classify q tx fr =
    if fr.payload.length = 1 + 2 * q.arg.toNat ∧ (fr.payload.getD 0 0#8).toNat = 2 * q.arg.toNat then .normal
    else .bad := by
  have hne : fr.fc ≠ excFc q.fc := hfc ▸ ne_excFc_of_request (by tauto)
  have hbits : ¬(q.fc = 0x01#8 ∨ q.fc = 0x02#8) := by
    rw [← hfc]
    obtain h | h := h <;> simp [h]
  rw [classify, if_neg (not_not.2 haddr), if_neg hne, if_neg (not_not.2 hfc), if_neg hbits, if_pos (hfc ▸ h),
    normalIf_and]

theorem classify_of_write (h : fr.fc = 0x05#8 ∨ fr.fc = 0x06#8 ∨ fr.fc = 0x0F#8 ∨ fr.fc = 0x10#8) : classify q tx fr =
    if fr.payload = readCells tx 2 4 then .normal else .bad := by
  have hne : fr.fc ≠ excFc q.fc := hfc ▸ ne_excFc_of_request (by tauto)
  have hreads : ¬(q.fc = 0x01#8 ∨ q.fc = 0x02#8) ∧ ¬(q.fc = 0x03#8 ∨ q.fc = 0x04#8) := by
    rw [← hfc]
    obtain h | h | h | h := h <;> simp [h]
  obtain ⟨hbits, hregs⟩ := hreads
  rw [classify, if_neg (not_not.2 haddr), if_neg hne, if_neg (not_not.2 hfc), if_neg hbits, if_neg hregs,
    if_pos (hfc ▸ h)]
  simp [normalIf]

end

/-! ## The words of a stored response (R303) -/

theorem storeResponse_of_bitRead (q : Request) (p : List Byte) (win : Cells 16) (h : q.fc = 0x01#8 ∨ q.fc = 0x02#8) :
    storeResponse q p win = writeCells win 0
      ((List.range (ceilDiv q.arg.toNat 16)).map (windowWord (unpack (p.drop 1) q.arg.toNat))) := if_pos h

theorem storeResponse_of_registerRead (q : Request) (p : List Byte) (win : Cells 16)
    (h : q.fc = 0x03#8 ∨ q.fc = 0x04#8) :
    storeResponse q p win = writeCells win 0 (bytesRegs (p.drop 1) q.arg.toNat) := by
  have hbits : ¬(q.fc = 0x01#8 ∨ q.fc = 0x02#8) := by
    obtain h | h := h <;> simp [h]
  rw [storeResponse, if_neg hbits, if_pos h]

theorem storeResponse_of_write (q : Request) (p : List Byte) (win : Cells 16)
    (h : q.fc = 0x05#8 ∨ q.fc = 0x06#8 ∨ q.fc = 0x0F#8 ∨ q.fc = 0x10#8) : storeResponse q p win = win := by
  unfold storeResponse
  obtain h | h | h | h := h <;> simp [h]

/-- Bit `j` of word `w` of a window is element `16 w + j` (R52). -/
theorem windowWord_extractLsb' (b : List (BitVec 1)) (w j : Nat) (hj : j < 16) :
    (windowWord b w).extractLsb' j 1 = bitAt b (16 * w + j) := by
  have hsplit : (windowWord b w).extractLsb' j 1 =
      if j < 8 then (packByte b (2 * w)).extractLsb' j 1 else (packByte b (2 * w + 1)).extractLsb' (j - 8) 1 := by
    refine BitVec.eq_of_getLsbD_eq fun k hk => ?_
    obtain rfl : k = 0 := by omega
    rw [BitVec.getLsbD_extractLsb', windowWord, BitVec.getLsbD_append]
    split_ifs <;> simp <;> omega
  rw [hsplit]
  split_ifs with hlow
  · rw [packByte_extractLsb' b (2 * w) j hlow]
    congr 1
    omega
  · rw [packByte_extractLsb' b (2 * w + 1) (j - 8) (by omega)]
    congr 1
    omega

section
variable {win : Cells 16} (hwin : cellsWf win = true) (q : Request) (p : List Byte)

include hwin in
/-- Bit `k` of a stored bit response: bit `k` of the data, or 0 beyond the quantity. -/
theorem storeResponse_bit (hfc : q.fc = 0x01#8 ∨ q.fc = 0x02#8) (k : Nat) (hk : k < 16 * ((q.arg.toNat + 15) / 16)) :
    (readCell (storeResponse q p win) (k / 16)).extractLsb' (k % 16) 1 =
      bitAt (unpack (p.drop 1) q.arg.toNat) k := by
  have hword : k / 16 < ceilDiv q.arg.toNat 16 := by
    unfold ceilDiv
    omega
  have hread := readCell_writeCells_inside
    ((List.range (ceilDiv q.arg.toNat 16)).map (windowWord (unpack (p.drop 1) q.arg.toNat))) win 0 (k / 16) hwin
    (by simpa using hword)
  rw [Nat.zero_add] at hread
  rw [storeResponse_of_bitRead q p win hfc, hread]
  simp only [List.getD_eq_getElem?_getD, List.getElem?_map, List.getElem?_range hword, Option.map_some, Option.getD_some]
  rw [windowWord_extractLsb' _ _ _ (Nat.mod_lt k (by decide)), Nat.div_add_mod]

theorem storeResponse_bit_outside (hfc : q.fc = 0x01#8 ∨ q.fc = 0x02#8) (w : Nat) (hw : (q.arg.toNat + 15) / 16 ≤ w) :
    readCell (storeResponse q p win) w = readCell win w := by
  rw [storeResponse_of_bitRead q p win hfc]
  exact readCell_writeCells_outside _ win 0 w (.inr (by simp [ceilDiv]; omega))

include hwin in
theorem storeResponse_register (hfc : q.fc = 0x03#8 ∨ q.fc = 0x04#8) (k : Nat) (hk : k < q.arg.toNat) :
    readCell (storeResponse q p win) k = be16 (p.getD (1 + 2 * k) 0#8) (p.getD (2 + 2 * k) 0#8) := by
  have hread := readCell_writeCells_inside (bytesRegs (p.drop 1) q.arg.toNat) win 0 k hwin (by simpa using hk)
  rw [Nat.zero_add] at hread
  have hnext : 1 + (2 * k + 1) = 2 + 2 * k := by omega
  rw [storeResponse_of_registerRead q p win hfc, hread, bytesRegs_getD _ _ _ hk]
  simp only [List.getD_eq_getElem?_getD, List.getElem?_drop, hnext]

theorem storeResponse_register_outside (hfc : q.fc = 0x03#8 ∨ q.fc = 0x04#8) (w : Nat) (hw : q.arg.toNat ≤ w) :
    readCell (storeResponse q p win) w = readCell win w := by
  rw [storeResponse_of_registerRead q p win hfc]
  exact readCell_writeCells_outside _ win 0 w (.inr (by simpa using hw))

end

/-! ## A frame instruction in client role -/

section
variable {i : Instr} {fr : Frame} {s : State}

theorem acceptFrame_of_awaiting (addr fc : Byte) (p : List Byte) (run : PduFn) (h : Awaiting s) :
    acceptFrame addr fc p run s = .next (clientFrame ⟨addr, fc, p⟩ s) := by
  obtain ⟨hopen, hen, hrole, -⟩ := h
  simp [acceptFrame, State.listening, hopen, hen, hrole]

theorem exec_of_awaiting (hi : frameOf i = some fr) (h : Awaiting s) : exec i s = .next (clientFrame fr s) := by
  obtain ⟨run, -, hrun⟩ := exec_routerFn i fr hi
  rw [hrun, acceptFrame_of_awaiting _ _ _ _ h]

theorem clientFrame_of_ignore (h : classify s.client.rq s.tx.buf fr = .ignore) : clientFrame fr s = s := by
  simp only [clientFrame, h]

theorem clientFrame_of_bad (h : classify s.client.rq s.tx.buf fr = .bad) : clientFrame fr s = crcError .badPdu s := by
  simp only [clientFrame, h]

/-- A normal response resolves the exchange, its words in the window (R303). -/
theorem clientFrame_of_normal (h : classify s.client.rq s.tx.buf fr = .normal) (hne : fr.fc ≠ excFc s.client.rq.fc) :
    clientFrame fr s = resolvedState ⟨.ok, none, 0#8, s.client.retryBound - s.client.retryLeft⟩ 0x01#5
      (storeResponse s.client.rq fr.payload s.regs.win) s := by
  have hresult : matchedResult s.client.rq s.client fr = ⟨.ok, none, 0#8, resends s.client⟩ := if_neg hne
  have hwin : matchedWin s.client.rq fr s.regs.win = storeResponse s.client.rq fr.payload s.regs.win := if_neg hne
  calc clientFrame fr s
    _ = matched fr s := by simp only [clientFrame, h]
    _ = resolvedState (matchedResult s.client.rq s.client fr) 0x01#5 (matchedWin s.client.rq fr s.regs.win) s := rfl
    _ = _ := by rw [hresult, hwin]; rfl

/-- An exception response resolves the exchange with its code (R303). -/
theorem clientFrame_of_exception (h : classify s.client.rq s.tx.buf fr = .exception) (hfc : fr.fc = excFc s.client.rq.fc) :
    clientFrame fr s = resolvedState
      ⟨.protocolException, none, fr.payload.getD 0 0#8, s.client.retryBound - s.client.retryLeft⟩ 0x01#5 s.regs.win s := by
  have hresult : matchedResult s.client.rq s.client fr =
      ⟨.protocolException, none, fr.payload.getD 0 0#8, resends s.client⟩ := if_pos hfc
  have hwin : matchedWin s.client.rq fr s.regs.win = s.regs.win := if_pos hfc
  calc clientFrame fr s
    _ = matched fr s := by simp only [clientFrame, h]
    _ = resolvedState (matchedResult s.client.rq s.client fr) 0x01#5 (matchedWin s.client.rq fr s.regs.win) s := rfl
    _ = _ := by rw [hresult, hwin]; rfl

/-- A response of the wrong shape is `BAD` (R302). -/
theorem classify_of_badShape {q : Request} {tx : Cells 8} (haddr : fr.addr = q.unit)
    (h : (fr.fc = q.fc ||| 0x80#8 ∧ fr.payload.length ≠ 1) ∨
      (fr.fc = q.fc ∧ (fr.fc = 0x01#8 ∨ fr.fc = 0x02#8) ∧
        ¬(fr.payload.length = 1 + (q.arg.toNat + 7) / 8 ∧ (fr.payload.getD 0 0#8).toNat = (q.arg.toNat + 7) / 8)) ∨
      (fr.fc = q.fc ∧ (fr.fc = 0x03#8 ∨ fr.fc = 0x04#8) ∧
        ¬(fr.payload.length = 1 + 2 * q.arg.toNat ∧ (fr.payload.getD 0 0#8).toNat = 2 * q.arg.toNat)) ∨
      (fr.fc = q.fc ∧ (fr.fc = 0x05#8 ∨ fr.fc = 0x06#8 ∨ fr.fc = 0x0F#8 ∨ fr.fc = 0x10#8) ∧
        fr.payload ≠ readCells tx 2 4)) : classify q tx fr = .bad := by
  obtain ⟨hfc, hlen⟩ | ⟨hfc, hbits, hshape⟩ | ⟨hfc, hregs, hshape⟩ | ⟨hfc, hwrite, hshape⟩ := h
  · rw [classify_of_exception haddr hfc, if_neg hlen]
  · rw [classify_of_bitRead haddr hfc hbits, if_neg hshape]
  · rw [classify_of_registerRead haddr hfc hregs, if_neg hshape]
  · rw [classify_of_write haddr hfc hwrite, if_neg hshape]

/-- A frame of the wrong shape is dropped (R301, R305). -/
theorem clientFrame_badShape_retriesOrFails (htx : s.tx.active = false)
    (h : classify s.client.rq s.tx.buf fr = .bad) :
    RetriesOrFails .corruptedResponse (some .badPdu) 0x04#5 s (.next (clientFrame fr s)) := by
  rw [clientFrame_of_bad h]
  exact crcError_retriesOrFails .badPdu s htx

end

/-! ## Ticks -/

/-- The state in which the receiver finds an idle tick: the event taken, both counters advanced (R190). -/
def State.counted (rest : List Event) (s : State) : State :=
  { s.taken rest with
    sil := silNext s.sil
    client := { s.client with respElapsed := elapsedAfter 1#32 s.client } }

section
variable {s : State} {rest : List Event} (hrst : s.rstN = true) (hin : s.inputs = .idleTick :: rest)
  (hopen : s.isOpen = true) (htx : s.tx.active = false)
include hrst hin hopen htx

/-- An idle tick on a free line: counters, receiver, client (R190). -/
theorem step_idleTick_counted :
    step s = andThen (idleReceiver (s.counted rest)) fun t => .next (clientTick t) := by
  rw [step_of_idleTick (s := s) hrst hin, idleTick_of_lineFree (s := s.taken rest) hopen htx, idleCounters_eq]
  rfl

/-- The step on the idle tick that ends a frame (R190). -/
theorem step_frameEnd_counted (hen : s.rx.en = true) (hrx : s.rx.state = .ctrlWait)
    (hsil : s.cfg.t35.toNat ≤ s.sil.toNat + 1) :
    step s = andThen (frameEnd (s.counted rest)) fun t => .next (clientTick t) := by
  have ht35 : s.cfg.t35.toNat ≤ (silNext s.sil).toNat := by
    have := s.cfg.t35.isLt
    rw [silNext_toNat]
    omega
  rw [step_idleTick_counted hrst hin hopen htx, idleReceiver_of_frameEnd (s.counted rest) hen hrx ht35]

/-- The step on the idle tick that ends no frame (R190). -/
theorem step_idleTick_of_not_frameEnds
    (hends : ¬FrameEnds s.cfg (min (s.sil.toNat + 1) 4294967295) s.rx) :
    step s = .next (clientTick (setRxState (rxTickState s.cfg (silNext s.sil).toNat s.rx) (s.counted rest))) := by
  rw [← silNext_toNat] at hends
  rw [step_idleTick_counted hrst hin hopen htx, idleReceiver_of_not_frameEnds (s.counted rest) hends]
  rfl

end

end Sys2Proof.Machine

open Sys2Proof Sys2Proof.Machine

/-- Settles O23: the frame is `NORMAL`, and the stored words are read back bit by bit. -/
theorem bitResponseIsStored : Obligations.BitResponseIsStored := by
  intro i fr s hcanon hi hawait haddr hfc hbits hlen hcount
  obtain ⟨-, hwin, -⟩ := hcanon
  have hrq : s.client.rq.fc = 0x01#8 ∨ s.client.rq.fc = 0x02#8 := hfc ▸ hbits
  have hclass : classify s.client.rq s.tx.buf fr = .normal := by
    rw [classify_of_bitRead haddr hfc hbits, if_pos ⟨hlen, hcount⟩]
  have hne : fr.fc ≠ excFc s.client.rq.fc := hfc ▸ ne_excFc_of_request (by tauto)
  refine ⟨storeResponse s.client.rq fr.payload s.regs.win, ?_, fun k hk => ?_, fun k hk hlt => ?_,
    storeResponse_bit_outside _ _ hrq⟩
  · rw [exec_of_awaiting hi hawait, clientFrame_of_normal hclass hne]
  · rw [storeResponse_bit hwin _ _ hrq k (by omega), bitAt, unpack_getD _ _ _ hk]
    simp only [List.getD_eq_getElem?_getD, List.getElem?_drop]
  · rw [storeResponse_bit hwin _ _ hrq k hlt, bitAt_of_ge _ k (by simpa using hk)]

/-- Settles O24: the frame is `NORMAL`, and the stored values are read back. -/
theorem registerResponseIsStored : Obligations.RegisterResponseIsStored := by
  intro i fr s hcanon hi hawait haddr hfc hregs hlen hcount
  obtain ⟨-, hwin, -⟩ := hcanon
  have hrq : s.client.rq.fc = 0x03#8 ∨ s.client.rq.fc = 0x04#8 := hfc ▸ hregs
  have hclass : classify s.client.rq s.tx.buf fr = .normal := by
    rw [classify_of_registerRead haddr hfc hregs, if_pos ⟨hlen, hcount⟩]
  have hne : fr.fc ≠ excFc s.client.rq.fc := hfc ▸ ne_excFc_of_request (by tauto)
  refine ⟨storeResponse s.client.rq fr.payload s.regs.win, ?_, storeResponse_register hwin _ _ hrq,
    storeResponse_register_outside _ _ hrq⟩
  rw [exec_of_awaiting hi hawait, clientFrame_of_normal hclass hne]

/-- Settles O25: the frame is `NORMAL`, and a write stores nothing in the window. -/
theorem writeResponseResolves : Obligations.WriteResponseResolves := by
  intro i fr s hi hawait haddr hfc hwrite hecho
  have hclass : classify s.client.rq s.tx.buf fr = .normal := by
    rw [classify_of_write haddr hfc hwrite, if_pos hecho]
  have hne : fr.fc ≠ excFc s.client.rq.fc := hfc ▸ ne_excFc_of_request (by tauto)
  rw [exec_of_awaiting hi hawait, clientFrame_of_normal hclass hne, storeResponse_of_write _ _ _ (hfc ▸ hwrite)]

/-- Settles O26: the frame is an exception response of one byte. -/
theorem exceptionResponseResolves : Obligations.ExceptionResponseResolves := by
  intro addr fc7 code s hawait haddr hfc
  have hclass : classify s.client.rq s.tx.buf ⟨addr, highFc fc7, [code]⟩ = .exception := by
    rw [classify_of_exception haddr hfc, if_pos List.length_singleton]
  rw [exec_of_awaiting (i := .exception addr fc7 [code]) rfl hawait, clientFrame_of_exception hclass hfc]
  rfl

/-- Settles O27: the frame is `IGNORE`; on the tick that ends it the window may close. -/
theorem otherFramesAreIgnoredByClient : Obligations.OtherFramesAreIgnoredByClient := by
  refine ⟨fun i fr s hi hawait hother => ?_,
    fun s rest fr hrst hin hawait htx hrx hsil hdec hother hfits => ?_⟩
  · rw [exec_of_awaiting hi hawait, clientFrame_of_ignore (classify_of_other hother)]
  · obtain ⟨hopen, hen, hrole, hst⟩ := hawait
    have helapsed : (elapsedAfter 1#32 s.client).toNat = s.client.respElapsed.toNat + 1 :=
      elapsedAfter_toNat 1#32 s.client hst hfits
    obtain ⟨run, -, hend⟩ := frameEnd_routerFn (s.counted rest) fr hdec
    have hignored : frameEnd (s.counted rest) = .next (setRxState .idle (s.counted rest)) := by
      rw [hend, acceptFrame_of_awaiting (s := setRxState .idle (s.counted rest)) _ _ _ _ ⟨hopen, hen, hrole, hst⟩]
      exact congrArg _ (clientFrame_of_ignore (classify_of_other hother))
    have hstep : step s = .next (clientTick (setRxState .idle (s.counted rest))) := by
      rw [step_frameEnd_counted hrst hin hopen htx hen hrx hsil, hignored]
      rfl
    refine ⟨silNext s.sil, elapsedAfter 1#32 s.client, setRxState .idle (s.counted rest), silNext_toNat s.sil, helapsed, rfl,
      fun hopened => ?_, fun hclosed => ?_⟩
    · rw [hstep]
      refine congrArg _ (clientTick_of_quiet _ (fun hsend => ?_) fun _ => ?_)
      · exact CState.noConfusion (hst.symm.trans hsend)
      · exact helapsed ▸ hopened
    · rw [hstep]
      exact clientTick_retriesOrFails _ htx hst (helapsed ▸ hclosed)

/-- Settles O28: both ways the response is dropped by the one operation of the client. -/
theorem badResponseRetriesOrFails : Obligations.BadResponseRetriesOrFails := by
  refine ⟨fun i fr s hi hawait htx haddr hshape => ?_, fun s rest k hrst hin hawait htx hrx hsil hdec => ?_⟩
  · rw [exec_of_awaiting hi hawait]
    exact clientFrame_badShape_retriesOrFails htx (classify_of_badShape haddr hshape)
  · obtain ⟨hopen, hen, hrole, hst⟩ := hawait
    have hout := crcError_retriesOrFails k (setRxState .idle (s.counted rest)) htx
    refine ⟨silNext s.sil, setRxState .idle (s.counted rest), silNext_toNat s.sil, ?_, ?_⟩
    · rw [State.counted, elapsedAfter_of_await 1#32 s.client hst]
      rfl
    · rw [step_frameEnd_counted hrst hin hopen htx hen hrx hsil,
        frameEnd_of_frameError_client (s.counted rest) k hrole hdec]
      have hquiet := clientTick_of_retriesOrFails (s := setRxState .idle (s.counted rest)) htx hout
      change RetriesOrFails _ _ _ _ (.next (clientTick (crcError k (setRxState .idle (s.counted rest)))))
      rwa [hquiet]

end

section
/-! PROOFS. Single steps: the host's writes, and what ticks and characters do (42_frame_codec.md R186 to R192, 46_client_fsm.md R300 to
R306, 48_host_interface.md R361 to R363). -/

namespace Sys2Proof.Machine

/-! ## Host writes (R361, R363) -/

theorem andThen_next_right (o : Host.Outcome State Fault Refusal) : andThen o .next = o := by
  cases o <;> rfl

theorem execAll_singleton (i : Instr) : execAll [i] = exec i := funext fun s => andThen_next_right (exec i s)

theorem execAll_append (l r : List Instr) : execAll (l ++ r) = fun s => andThen (execAll l s) (execAll r) := by
  funext s
  induction l generalizing s with
  | nil => rfl
  | cons i l ih =>
    show andThen (exec i s) (execAll (l ++ r)) = andThen (andThen (exec i s) (execAll l)) (execAll r)
    cases exec i s with
    | next t => exact ih t
    | fault f => rfl
    | refused r => rfl

/-- A command runs exactly when its bit is set (R361). -/
theorem execAll_ite (b : Bool) (i : Instr) :
    execAll (if b then [i] else []) = fun s => if b then exec i s else .next s := by
  cases b with
  | false => rfl
  | true => exact execAll_singleton i

theorem csrWrite_of_decoded {n : Nat} {v : Reg} {l : List Instr} (h : decodeCsr n v = .ok l) (s : State) :
    csrWrite n v s = execAll l s := by
  simp only [csrWrite, h]

theorem csrWrite_of_plain {n : Nat} {v : Reg} {r : Reject} (h : decodeCsr n v = .error r) (s : State) :
    csrWrite n v s = .next { s with regs := writeReg n v s.regs } := by
  simp only [csrWrite, h]

theorem step_of_csrWrite {s : State} {n : Nat} {v : Reg} {rest : List Event} (hrst : s.rstN = true)
    (hin : s.inputs = .csrWrite n v :: rest) : step s = csrWrite n v (s.taken rest) := by
  rw [step_of_event s _ rest hin]
  exact if_pos hrst

/-! ## A closed block (R192) -/

theorem handle_of_closed {s : State} (e : Event) (he : isLineEvent e = true) (h : s.isOpen = false) :
    handle e s = .next s := by
  have hfree : s.lineFree = false := by simp [State.lineFree, h]
  have htrans : s.transmitting = false := by simp [State.transmitting, h]
  have hmasked : ∀ o : Host.Outcome State Fault Refusal, o = .next s → (if s.rstN then o else .next s) = .next s := by
    rintro _ rfl
    exact ite_self _
  have hchar : ∀ b err, rxChar b err s = .next s := fun b err => by simp [rxChar, hfree]
  cases e with
  | reset | rstRise | csrWrite | csrRead => cases he
  | idleTick => exact hmasked _ (by simp [idleTick, hfree])
  | rxChar b err => exact hmasked _ (hchar b err)
  | rxLine samples => exact hmasked _ (hchar _ _)
  | txChar => exact hmasked _ (by simp [txChar, htrans])

theorem opened_sil (s : State) : (opened s).sil = 0#32 := by
  unfold opened sessionRx
  split <;> rfl

/-! ## The end of a frame that is one instruction (R193) -/

theorem decodeFrame_of_decode {f : List Byte} {i : Instr} (h : decode (.frame f) = .ok [i]) :
    ∃ fr, decodeFrame false false false f = .ok fr ∧ decodePdu fr.addr fr.fc fr.payload = .ok i := by
  cases hfr : decodeFrame false false false f with
  | error k => simp [decode, hfr] at h
  | ok fr =>
    cases hpdu : decodePdu fr.addr fr.fc fr.payload with
    | error r => simp [decode, hfr, hpdu] at h
    | ok j =>
      obtain rfl : j = i := by simpa [decode, hfr, hpdu] using h
      exact ⟨fr, rfl, hpdu⟩

theorem frameEnd_of_instruction {s : State} {fr : Frame} {i : Instr}
    (hfr : decodeFrame s.rx.overrun s.rx.charErr s.rx.gap (rxFrame s) = .ok fr)
    (hpdu : decodePdu fr.addr fr.fc fr.payload = .ok i) : frameEnd s = exec i (setRxState .idle s) := by
  simp only [frameEnd, hfr, hpdu]

/-! ## The receiver switched off -/

theorem rxOff_of_off {s : State} (h : s.rx.en = false) : rxOff s = s := by
  have hrx : { s.rx with en := false } = s.rx := by rw [← h]
  unfold rxOff
  rw [hrx]

theorem rxTickState_of_off {c : Cfg} {sil : Nat} {r : Rx} (h : r.en = false) : rxTickState c sil r = r.state :=
  if_neg (by simp [h])

/-! ## Characters (R191) -/

section
variable {s : State} {rest : List Event}

/-- The state after a character, before the response timer is tested (R191). -/
def State.received (rest : List Event) (b : Byte) (err : Bool) (s : State) : State :=
  { s.taken rest with
    sil := 0#32
    rx := rxTake b err s.rx
    client := { s.client with respElapsed := elapsedAfter (s.cfg.cb.setWidth 32) s.client } }

theorem cb_setWidth_toNat (cb : BitVec 4) : (cb.setWidth 32).toNat = cb.toNat :=
  BitVec.toNat_setWidth_of_le (by decide)

/-- A received character, given by byte and flag or by the samples that give them (R158, R191; log 14). -/
theorem step_of_received {b : Byte} {err : Bool} (hrst : s.rstN = true) (hopen : s.isOpen = true)
    (htx : s.tx.active = false)
    (hin : s.inputs = .rxChar b err :: rest ∨
      ∃ samples, s.inputs = .rxLine samples :: rest ∧ sampledChar s.cfg.parity samples = (b, err)) :
    step s = .next (clientAfterChar (s.received rest b err)) := by
  have hchar : rxChar b err (s.taken rest) = .next (clientAfterChar (s.received rest b err)) := by
    rw [rxChar_of_lineFree (s := s.taken rest) hopen htx, advanceTimer_eq]
    rfl
  obtain hin | ⟨samples, hin, hsampled⟩ := hin
  · rw [step_of_event s _ rest hin]
    exact (if_pos hrst).trans hchar
  · have hline : rxLine samples (s.taken rest) = rxChar b err (s.taken rest) := by
      show rxChar (sampledChar s.cfg.parity samples).1 (sampledChar s.cfg.parity samples).2 (s.taken rest) = _
      rw [hsampled]
    rw [step_of_event s _ rest hin]
    exact (if_pos hrst).trans (hline.trans hchar)

end

end Sys2Proof.Machine

open Sys2Proof Sys2Proof.Machine

/-- Settles O38: the write's instructions are the one. -/
theorem stepRunsHostInstruction : Obligations.StepRunsHostInstruction := by
  intro s n v rest i hrst hin hdec
  rw [step_of_csrWrite hrst hin, csrWrite_of_decoded hdec, execAll_singleton]
  rfl

/-- Settles O40: the list of the commands is run in its order, an absent one as nothing. -/
theorem commandsRunInOrder : Obligations.CommandsRunInOrder := by
  intro s v rest hrst hin
  have hdec : decodeCsr 0 v = .ok (decodeCtrl v) := rfl
  rw [step_of_csrWrite hrst hin, csrWrite_of_decoded hdec]
  simp only [decodeCtrl, List.append_assoc, execAll_append, execAll_ite]
  rfl

/-- Settles O39: the frame decodes inside the tick as it does as a word, every flag being clear. -/
theorem stepRunsFrameInstruction : Obligations.StepRunsFrameInstruction := by
  intro s rest i hrst hin hopen htx hen hrx hover herr hgap hdec hsil
  have hend : frameEnd (s.counted rest) = exec i (setRxState .idle (s.counted rest)) := by
    obtain ⟨fr, hfr, hpdu⟩ := decodeFrame_of_decode hdec
    have hflags : decodeFrame s.rx.overrun s.rx.charErr s.rx.gap (readCells s.rx.buf 0 s.rx.len.toNat) = .ok fr := by
      rwa [hover, herr, hgap]
    exact frameEnd_of_instruction (s := s.counted rest) hflags hpdu
  have hclient : { s.client with respElapsed := elapsedAfter 1#32 s.client } =
      if s.client.state = .await then { s.client with respElapsed := s.client.respElapsed + 1#32 } else s.client := by
    unfold elapsedAfter
    split <;> rfl
  refine ⟨silNext s.sil, silNext_toNat s.sil, ?_⟩
  rw [step_frameEnd_counted hrst hin hopen htx hen hrx hsil, hend, ← hclient]
  rfl

/-- Settles O45: no line event occurs while the block is closed, and `OPEN` clears the counter. -/
theorem closedBlockIgnoresTheLine : Obligations.ClosedBlockIgnoresTheLine := by
  intro s hclosed
  refine ⟨fun e rest hin he => ?_, fun hin => ?_, fun t hexec hopened => ?_⟩
  · rw [step_of_event s e rest hin]
    exact handle_of_closed (s := s.taken rest) e he hclosed
  · rw [step_of_nil s hin, handle_of_closed (s := s.taken []) .txChar rfl hclosed, State.taken, ← hin]
  · by_cases hlegal : OpenLegal s.regs
    · cases (execOpen_of_legal s hclosed hlegal).symm.trans hexec
      exact opened_sil s
    · cases (execOpen_of_illegal s hclosed hlegal).symm.trans hexec
      exact Bool.noConfusion (hclosed.symm.trans hopened)

/-- Settles O48: the tick's three parts, the client's doing nothing. -/
theorem silenceMovesTheReceiver : Obligations.SilenceMovesTheReceiver := by
  intro s rest hrst hin hopen htx hst hends hwindow
  have hcount : s.client.state = .await →
      (elapsedAfter 1#32 s.client).toNat = s.client.respElapsed.toNat + 1 := fun hawait =>
    elapsedAfter_toNat 1#32 s.client hawait (Nat.lt_trans (hwindow hawait) s.cfg.tmo.isLt)
  refine ⟨silNext s.sil, elapsedAfter 1#32 s.client, _, silNext_toNat s.sil, hcount, elapsedAfter_of_not_await 1#32 s.client,
    rxTickState_receiverTicks s.cfg _ s.rx, ?_⟩
  rw [step_idleTick_of_not_frameEnds hrst hin hopen htx hends]
  exact congrArg _ (clientTick_of_quiet _ hst fun hawait => hcount hawait ▸ hwindow hawait)

/-- Settles O50: the tick or the character first, then the client finds its window closed. -/
theorem timeoutRetriesOrFails : Obligations.TimeoutRetriesOrFails := by
  intro s rest hcanon hrst hawait htx
  obtain ⟨-, -, -, hbuf, -⟩ := hcanon
  obtain ⟨hopen, -, -, hst⟩ := hawait
  refine ⟨fun hin hends hclosed hfits => ?_, fun b err hin hclosed hfits => ?_⟩
  · have hcount : (elapsedAfter 1#32 s.client).toNat = s.client.respElapsed.toNat + 1 :=
      elapsedAfter_toNat 1#32 s.client hst hfits
    refine ⟨silNext s.sil, elapsedAfter 1#32 s.client, _, _, silNext_toNat s.sil, hcount,
      rxTickState_receiverTicks s.cfg _ s.rx, rfl, ?_⟩
    rw [step_idleTick_of_not_frameEnds hrst hin hopen htx hends]
    exact clientTick_retriesOrFails _ htx hst (hcount ▸ hclosed)
  · have hcount : (elapsedAfter (s.cfg.cb.setWidth 32) s.client).toNat =
        s.client.respElapsed.toNat + s.cfg.cb.toNat := by
      rw [elapsedAfter_toNat _ _ hst (by rwa [cb_setWidth_toNat]), cb_setWidth_toNat]
    refine ⟨_, _, s.received rest b err, hcount, rxTake_receiverTakes b err s.rx hbuf, rfl, ?_⟩
    rw [step_of_received hrst hopen htx (.inl hin),
      clientAfterChar_of_closed (s.received rest b err) hst (hcount ▸ hclosed)]
    exact timedOut_retriesOrFails _ htx

/-- Settles O51: a `TxChar` that is not the last, listed or the block's own. -/
theorem txCharSendsTheNextByte : Obligations.TxCharSendsTheNextByte := by
  intro s rest hrst hin hopen htx hlast
  have hhandle : step s = handle .txChar (s.taken rest) := by
    obtain hin | ⟨hin, rfl⟩ := hin
    · exact step_of_event s _ rest hin
    · exact step_of_nil s hin
  have htrans : (s.taken rest).transmitting = true := by simp [State.transmitting, State.taken, hopen, htx]
  calc step s
    _ = txChar (s.taken rest) := hhandle.trans (if_pos hrst)
    _ = .next (sentChar (s.taken rest)) := (if_pos htrans).trans (if_neg hlast)

/-- Settles O53: the receiver is off, so the tick ends no frame and the client sends once the line is silent. -/
theorem clientSendsAfterSilence : Obligations.ClientSendsAfterSilence := by
  intro s rest hrst hin hopen htx hen hst
  have hends : ¬FrameEnds s.cfg (min (s.sil.toNat + 1) 4294967295) s.rx := fun ⟨hon, _⟩ =>
    Bool.noConfusion (hen.symm.trans hon)
  have hwaits : s.client.state ≠ .await := fun hawait => CState.noConfusion (hst.symm.trans hawait)
  refine ⟨silNext s.sil, silNext_toNat s.sil, ?_⟩
  have hcounted : setRxState s.rx.state (s.counted rest) = s.ticked rest := by
    rw [State.counted, elapsedAfter_of_not_await 1#32 s.client hwaits]
    rfl
  have hquiet : clientAfterChar (s.ticked rest) = s.ticked rest :=
    clientAfterChar_of_open _ fun hawait => absurd hawait hwaits
  rw [step_idleTick_of_not_frameEnds hrst hin hopen htx hends, rxTickState_of_off hen, hcounted, clientTick, hquiet,
    clientTrySend_of_sending (s.ticked rest) hst htx]
  change Host.Outcome.next (if s.cfg.t35.toNat ≤ (silNext s.sil).toNat then txStart (s.ticked rest) else s.ticked rest) = _
  by_cases hsil : s.cfg.t35.toNat ≤ (silNext s.sil).toNat
  · simp only [if_pos hsil]
    exact congrArg _ (rxOff_of_off hen)
  · simp only [if_neg hsil]
    rfl

/-- Settles O54: the character, the response window staying open. -/
theorem receiverStoresCharacters : Obligations.ReceiverStoresCharacters := by
  intro s rest b err hcanon hrst hin hopen htx hwindow
  obtain ⟨-, -, -, hbuf, -⟩ := hcanon
  have hcount : s.client.state = .await → (elapsedAfter (s.cfg.cb.setWidth 32) s.client).toNat =
      s.client.respElapsed.toNat + s.cfg.cb.toNat := fun hawait => by
    have hlt := hwindow hawait
    have htmo := s.cfg.tmo.isLt
    rw [elapsedAfter_toNat _ _ hawait (by rw [cb_setWidth_toNat]; omega), cb_setWidth_toNat]
  refine ⟨_, _, hcount, elapsedAfter_of_not_await _ s.client, rxTake_receiverTakes b err s.rx hbuf, ?_⟩
  rw [step_of_received hrst hopen htx hin]
  exact congrArg _ (clientAfterChar_of_open (s.received rest b err) fun hawait => hcount hawait ▸ hwindow hawait)

end

section
/-! PROOFS. The register file as the host sees it (10_state.md R28 to R53, 48_host_interface.md R361, R362, R375) and the reset
(70_reset_and_hazards.md R440). -/

namespace Sys2Proof.Machine

/-! ## The numbers behind the fields -/

theorem bitReg_getLsbD (b : Bool) (i : Nat) : (bitReg b).getLsbD i = (decide (i = 0) && b) := by
  cases b with
  | false => simp [bitReg]
  | true => simp [bitReg, BitVec.getLsbD_one]

theorem roleReg_eq (r : Role) : roleReg r = bitReg (decide (r = .server)) := by
  cases r <;> rfl

/-- A number below `2 ^ w` has all its bits below `w`. -/
theorem setWidth_getLsbD_of_lt {x : Reg} {w : Nat} (hx : x.toNat < 2 ^ w) (i : Nat) :
    (x.setWidth w).getLsbD i = x.getLsbD i := by
  rw [BitVec.getLsbD_setWidth]
  by_cases hi : i < w
  · simp [hi]
  · have hhigh : x.getLsbD i = false :=
      Nat.testBit_lt_two_pow (Nat.lt_of_lt_of_le hx (Nat.pow_le_pow_right (by decide) (Nat.not_lt.1 hi)))
    simp [hhigh]

section
variable (i : Nat)

theorem cstateReg_setWidth_getLsbD (c : CState) : ((cstateReg c).setWidth 3).getLsbD i = (cstateReg c).getLsbD i :=
  setWidth_getLsbD_of_lt (by cases c <;> decide) i

theorem sstateReg_setWidth_getLsbD (c : SState) : ((sstateReg c).setWidth 2).getLsbD i = (sstateReg c).getLsbD i :=
  setWidth_getLsbD_of_lt (by cases c <;> decide) i

theorem rxStateReg_setWidth_getLsbD (c : RxState) : ((rxStateReg c).setWidth 2).getLsbD i = (rxStateReg c).getLsbD i :=
  setWidth_getLsbD_of_lt (by cases c <;> decide) i

theorem tcauseReg_setWidth_getLsbD (c : TCause) : ((tcauseReg c).setWidth 4).getLsbD i = (tcauseReg c).getLsbD i :=
  setWidth_getLsbD_of_lt (by cases c <;> decide) i

theorem resultCodeReg_setWidth_getLsbD (c : ResultCode) :
    ((resultCodeReg c).setWidth 4).getLsbD i = (resultCodeReg c).getLsbD i :=
  setWidth_getLsbD_of_lt (by cases c <;> decide) i

end

/-! ## Bits of the assembled registers -/

theorem shiftLeft_getLsbD (x : Reg) (k : Nat) {i : Nat} (hi : i < 32) :
    (x <<< k).getLsbD i = (decide (k ≤ i) && x.getLsbD (i - k)) := by
  have hnot : (!decide (i < k)) = decide (k ≤ i) := by simp [← decide_not]
  rw [BitVec.getLsbD_shiftLeft, hnot, decide_eq_true hi, Bool.true_and]

theorem bitReg_shiftLeft_getLsbD (b : Bool) (k : Nat) {i : Nat} (hi : i < 32) :
    (bitReg b <<< k).getLsbD i = (decide (i = k) && b) := by
  rw [shiftLeft_getLsbD _ k hi, bitReg_getLsbD]
  by_cases h : i = k
  · simp [h]
  · by_cases hle : k ≤ i
    · have hne : i - k ≠ 0 := by omega
      simp [h, hne]
    · simp [h, hle]

/-- A bit of `STATUS`, from the bits of its fields (R32). -/
theorem statusReg_getLsbD (s : State) {i : Nat} (hi : i < 32) : (statusReg s).getLsbD i =
    ((decide (i = 0) && s.isOpen) || (decide (i = 1) && s.busy) || (decide (i = 2) && decide (s.cfg.role = .server)) ||
      (decide (i = 3) && s.tx.active) || (decide (4 ≤ i) && ((cstateReg s.client.state).setWidth 3).getLsbD (i - 4)) ||
      (decide (8 ≤ i) && ((sstateReg s.sstate).setWidth 2).getLsbD (i - 8)) ||
      (decide (12 ≤ i) && ((rxStateReg s.rx.state).setWidth 2).getLsbD (i - 12)) || (decide (i = 14) && s.rx.en) ||
      (decide (16 ≤ i) && ((tcauseReg s.regs.tcause).setWidth 4).getLsbD (i - 16))) := by
  simp only [statusReg, roleReg_eq, BitVec.getLsbD_or, bitReg_getLsbD, bitReg_shiftLeft_getLsbD _ _ hi,
    shiftLeft_getLsbD _ _ hi, cstateReg_setWidth_getLsbD, sstateReg_setWidth_getLsbD, rxStateReg_setWidth_getLsbD,
    tcauseReg_setWidth_getLsbD]

/-- A bit of `RESULT`, from the bits of its fields (R45). -/
theorem resultReg_getLsbD (r : Result) {i : Nat} (hi : i < 32) : (resultReg r).getLsbD i =
    (((resultCodeReg r.code).setWidth 4).getLsbD i || (decide (4 ≤ i) && (ferrCode r.ferr).getLsbD (i - 4)) ||
      (decide (8 ≤ i) && r.exc.getLsbD (i - 8)) || (decide (16 ≤ i) && r.resends.getLsbD (i - 16))) := by
  have hsub : ∀ k, i - k < 32 := fun k => by omega
  rw [resultCodeReg_setWidth_getLsbD]
  simp only [resultReg, BitVec.getLsbD_or, shiftLeft_getLsbD _ _ hi, BitVec.getLsbD_setWidth, hsub, decide_true,
    Bool.true_and]

/-- A bit of `SRVSTAT`, from the bits of its fields (R48). -/
theorem srvstatReg_getLsbD (r : SrvStat) {i : Nat} (hi : i < 32) : (srvstatReg r).getLsbD i =
    ((ferrCode r.lastFerr).getLsbD i || (decide (8 ≤ i) && r.lastExc.getLsbD (i - 8)) ||
      (decide (16 ≤ i) && r.lastFc.getLsbD (i - 16)) || (decide (i = 24) && r.lastBcast)) := by
  have hsub : ∀ k, i - k < 32 := fun k => by omega
  simp only [srvstatReg, BitVec.getLsbD_or, bitReg_shiftLeft_getLsbD _ _ hi, shiftLeft_getLsbD _ _ hi,
    BitVec.getLsbD_setWidth, hi, hsub, decide_true, Bool.true_and]

/-- A bit of `DSCMD`, from the bits of its fields (R46). -/
theorem dscmdReg_getLsbD (r : Regs) {i : Nat} (hi : i < 32) : (dscmdReg r).getLsbD i =
    (r.dsTable.getLsbD i || (decide (i = 2) && r.dsWr) || (decide (16 ≤ i) && r.dsStart.getLsbD (i - 16))) := by
  have hsub : ∀ k, i - k < 32 := fun k => by omega
  simp only [dscmdReg, BitVec.getLsbD_or, bitReg_shiftLeft_getLsbD _ _ hi, shiftLeft_getLsbD _ _ hi,
    BitVec.getLsbD_setWidth, hi, hsub, decide_true, Bool.true_and]

/-! ## Fields of the assembled registers -/

/-- A field of a register, bit by bit. -/
theorem extractLsb'_eq_of_bits {x : Reg} {k w : Nat} {y : BitVec w}
    (h : ∀ i, i < w → x.getLsbD (k + i) = y.getLsbD i) : x.extractLsb' k w = y := by
  refine BitVec.eq_of_getLsbD_eq fun i hi => ?_
  rw [BitVec.getLsbD_extractLsb', h i hi]
  simp [hi]

section
variable (s : State) (r : Result) (v : SrvStat) (g : Regs)

theorem statusReg_flags : (statusReg s).getLsbD 0 = s.isOpen ∧ (statusReg s).getLsbD 1 = s.busy ∧
    (statusReg s).getLsbD 2 = decide (s.cfg.role = .server) ∧ (statusReg s).getLsbD 3 = s.tx.active ∧
    (statusReg s).getLsbD 14 = s.rx.en := by
  refine ⟨?_, ?_, ?_, ?_, ?_⟩
  all_goals
    rw [statusReg_getLsbD s (by decide)]
    simp

theorem statusReg_fields : (statusReg s).extractLsb' 4 3 = (cstateReg s.client.state).setWidth 3 ∧
    (statusReg s).extractLsb' 8 2 = (sstateReg s.sstate).setWidth 2 ∧
    (statusReg s).extractLsb' 12 2 = (rxStateReg s.rx.state).setWidth 2 ∧
    (statusReg s).extractLsb' 16 4 = (tcauseReg s.regs.tcause).setWidth 4 := by
  refine ⟨?_, ?_, ?_, ?_⟩
  all_goals
    refine extractLsb'_eq_of_bits fun i hi => ?_
    rw [statusReg_getLsbD s (by omega)]
    interval_cases i <;> simp

theorem statusReg_reserved : ∀ i ∈ [7, 10, 11, 15, 20, 21, 22, 23, 24, 25, 26, 27, 28, 29, 30, 31],
    (statusReg s).getLsbD i = false := by
  intro i hi
  have hlt : i < 32 := by
    revert i
    decide
  rw [statusReg_getLsbD s hlt]
  fin_cases hi <;> simp

theorem resultReg_fields : (resultReg r).extractLsb' 0 4 = (resultCodeReg r.code).setWidth 4 ∧
    (resultReg r).extractLsb' 4 4 = ferrCode r.ferr ∧ (resultReg r).extractLsb' 8 8 = r.exc ∧
    (resultReg r).extractLsb' 16 8 = r.resends ∧ (resultReg r).extractLsb' 24 8 = 0#8 := by
  refine ⟨?_, ?_, ?_, ?_, ?_⟩
  all_goals
    refine extractLsb'_eq_of_bits fun i hi => ?_
    rw [resultReg_getLsbD r (by omega)]
    interval_cases i <;> simp

theorem srvstatReg_fields : (srvstatReg v).extractLsb' 0 4 = ferrCode v.lastFerr ∧
    (srvstatReg v).extractLsb' 4 4 = 0#4 ∧ (srvstatReg v).extractLsb' 8 8 = v.lastExc ∧
    (srvstatReg v).extractLsb' 16 8 = v.lastFc ∧ (srvstatReg v).extractLsb' 25 7 = 0#7 := by
  refine ⟨?_, ?_, ?_, ?_, ?_⟩
  all_goals
    refine extractLsb'_eq_of_bits fun i hi => ?_
    rw [srvstatReg_getLsbD v (by omega)]
    interval_cases i <;> simp

theorem srvstatReg_bcast : (srvstatReg v).getLsbD 24 = v.lastBcast := by
  rw [srvstatReg_getLsbD v (by decide)]
  simp

theorem dscmdReg_fields : (dscmdReg g).extractLsb' 0 2 = g.dsTable ∧ (dscmdReg g).extractLsb' 3 13 = 0#13 ∧
    (dscmdReg g).extractLsb' 16 16 = g.dsStart := by
  refine ⟨?_, ?_, ?_⟩
  all_goals
    refine extractLsb'_eq_of_bits fun i hi => ?_
    rw [dscmdReg_getLsbD g (by omega)]
    interval_cases i <;> simp

theorem dscmdReg_wr : (dscmdReg g).getLsbD 2 = g.dsWr := by
  rw [dscmdReg_getLsbD g (by decide)]
  simp

end

/-! ## Registers by number (R31) -/

/-- Beyond the named registers only the two windows hold anything. -/
theorem readReg_of_ge {n : Nat} (hn : 0x14 ≤ n) (s : State) : readReg n s =
    if isWin n then (readCell s.regs.win (n - 0x100)).setWidth 32
    else if isDswin n then (readCell s.regs.dswin (n - 0x200)).setWidth 32 else 0#32 := by
  unfold readReg
  split
  case h_19 => rfl
  all_goals omega

theorem writeReg_of_ge {n : Nat} (hn : 0x10 ≤ n) (v : Reg) (r : Regs) : writeReg n v r =
    if isWin n then { r with win := writeCell r.win (n - 0x100) (v.extractLsb' 0 16) }
    else if isDswin n then { r with dswin := writeCell r.dswin (n - 0x200) (v.extractLsb' 0 16) } else r := by
  unfold writeReg
  split
  case h_13 => rfl
  all_goals omega

theorem isWin_eq_false {n : Nat} (h : n < 0x100 ∨ 0x17D ≤ n) : isWin n = false := by
  rw [← Bool.not_eq_true, isWin_iff]
  omega

theorem isDswin_eq_false {n : Nat} (h : n < 0x200 ∨ 0x27D ≤ n) : isDswin n = false := by
  rw [← Bool.not_eq_true, isDswin_iff]
  omega

section
variable (s : State) (r : Regs) (v : Reg) {i : Nat} (hi : i < 125)
include hi

theorem readReg_win : readReg (0x100 + i) s = (readCell s.regs.win i).setWidth 32 := by
  rw [readReg_of_ge (by omega), if_pos ((isWin_iff _).2 (by omega)), Nat.add_sub_cancel_left]

theorem readReg_dswin : readReg (0x200 + i) s = (readCell s.regs.dswin i).setWidth 32 := by
  rw [readReg_of_ge (by omega), isWin_eq_false (by omega), if_neg Bool.false_ne_true,
    if_pos ((isDswin_iff _).2 (by omega)), Nat.add_sub_cancel_left]

theorem writeReg_win : writeReg (0x100 + i) v r = { r with win := writeCell r.win i (v.extractLsb' 0 16) } := by
  rw [writeReg_of_ge (by omega), if_pos ((isWin_iff _).2 (by omega)), Nat.add_sub_cancel_left]

theorem writeReg_dswin : writeReg (0x200 + i) v r = { r with dswin := writeCell r.dswin i (v.extractLsb' 0 16) } := by
  rw [writeReg_of_ge (by omega), isWin_eq_false (by omega), if_neg Bool.false_ne_true,
    if_pos ((isDswin_iff _).2 (by omega)), Nat.add_sub_cancel_left]

end

/-- Numbers between and beyond the windows are reserved. -/
theorem readReg_of_reserved {n : Nat} (h : (0x14 ≤ n ∧ n < 0x100) ∨ (0x17D ≤ n ∧ n < 0x200) ∨ 0x27D ≤ n) (s : State) :
    readReg n s = 0#32 := by
  rw [readReg_of_ge (by omega), isWin_eq_false (by omega), isDswin_eq_false (by omega)]
  rfl

theorem writeReg_of_reserved {n : Nat} (h : (0x14 ≤ n ∧ n < 0x100) ∨ (0x17D ≤ n ∧ n < 0x200) ∨ 0x27D ≤ n) (v : Reg)
    (r : Regs) : writeReg n v r = r := by
  rw [writeReg_of_ge (by omega), isWin_eq_false (by omega), isDswin_eq_false (by omega)]
  rfl

/-- The sizes of the tables show in no register. -/
theorem readReg_resetOf (p : Params) (n : Nat) : readReg n (State.resetOf p) = readReg n State.reset := rfl

/-- A write to a plain register decodes to no instruction (R361). -/
theorem decodeCsr_of_plain {n : Nat} {v : Reg} (hctrl : n ≠ 0x00) (hevt : n ≠ 0x02) (hcrc : n ≠ 0x11) :
    decodeCsr n v = .error (.plainRegister n) := by
  rw [decodeCsr, if_neg hctrl, if_neg hevt, if_neg hcrc]

end Sys2Proof.Machine

open Sys2Proof Sys2Proof.Machine

/-- Settles O56: the reset values are read off; a low `rst_n` masks every event but its rise. -/
theorem resetEventResetsTheBlock : Obligations.ResetEventResetsTheBlock := by
  intro s e rest hin
  refine ⟨?_, fun hrst hreset hrise => ?_, ?_⟩
  · rintro rfl
    have hirq : (doReset (s.taken rest)).irq = false := by
      show decide ((0#5) &&& 0#5 ≠ 0#5) = false
      decide
    exact ⟨doReset (s.taken rest), step_of_event s _ rest hin, rfl, rfl, rfl, rfl, fun i => ⟨rfl, rfl⟩, rfl, rfl, rfl, rfl, rfl,
      rfl, rfl, rfl, rfl, rfl, rfl, rfl, rfl, rfl, hirq, rfl, rfl, fun a => ⟨rfl, rfl, rfl, rfl⟩⟩
  · have hmasked : ∀ o : Host.Outcome State Fault Refusal,
        (if (s.taken rest).rstN then o else .next (s.taken rest)) = .next (s.taken rest) := fun o =>
      if_neg (by simpa [State.taken] using hrst)
    rw [step_of_event s e rest hin]
    cases e with
    | reset => exact absurd rfl hreset
    | rstRise => exact absurd rfl hrise
    | csrWrite | csrRead | idleTick | rxChar | rxLine | txChar => exact hmasked _
  · rintro rfl
    exact step_of_event s _ rest hin

/-- Settles O57: by the register number; the windows are empty. -/
theorem registersReadTheirResetValues : Obligations.RegistersReadTheirResetValues := by
  intro p n
  by_cases hn : n < 0x14
  · have hnamed : ∀ k < 0x14, readReg k State.reset =
        if k = 0x05 then 0x00000008#32 else if k = 0x06 then 0x000003E8#32 else if k = 0x08 then 0x00000002#32
        else if k = 0x12 then 0x0000FFFF#32 else 0#32 := by decide
    exact (readReg_resetOf p n).trans (hnamed n hn)
  · have hread : readReg n (State.resetOf p) = 0#32 := by
      rw [readReg_of_ge (Nat.not_lt.1 hn)]
      split_ifs <;> rfl
    rw [hread, if_neg (by omega), if_neg (by omega), if_neg (by omega), if_neg (by omega)]

/-- Settles O58: the fields of the assembled registers bit by bit, the stored ones by their number. -/
theorem readsReturnTheFields : Obligations.ReadsReturnTheFields := by
  intro s
  refine ⟨fun n rest hrst hin => ?_, ?_, ?_, ?_⟩
  · rw [step_of_event s _ rest hin]
    exact if_pos hrst
  · obtain ⟨hopen, hbusy, hrole, hactive, hen⟩ := statusReg_flags s
    obtain ⟨hcstate, hsstate, hrxState, htcause⟩ := statusReg_fields s
    refine ⟨hopen, hbusy, hrole, hactive, fun x hx hst => hcstate.trans ?_, fun x hx hst => hsstate.trans ?_,
      fun x hx hst => hrxState.trans ?_, hen, fun x hx hst => htcause.trans ?_, statusReg_reserved s⟩
    all_goals
      rw [hst]
      clear hst
      revert x
      decide
  · obtain ⟨hcode, hferr, hexc, hresends, hresult⟩ := resultReg_fields s.regs.result
    obtain ⟨hlast, hlow, hlastExc, hlastFc, hhigh⟩ := srvstatReg_fields s.regs.srv
    have hnumber : ∀ x ∈ [((none : Option FrameError), 0#4), (some .crcMismatch, 1#4), (some .truncated, 2#4),
        (some .charError, 3#4), (some .overrun, 4#4), (some .badPdu, 5#4)], ferrCode x.1 = x.2 := by decide
    refine ⟨fun x hx hst => hcode.trans ?_, fun x hx => ⟨fun hk => ?_, fun hk => ?_⟩, hexc, hresends, hresult, hlow,
      hlastExc, hlastFc, srvstatReg_bcast s.regs.srv, hhigh⟩
    · rw [hst]
      clear hst
      revert x
      decide
    · exact hferr.trans (hk ▸ hnumber x hx)
    · exact hlast.trans (hk ▸ hnumber x hx)
  · obtain ⟨htable, hreserved, hstart⟩ := dscmdReg_fields s.regs
    have hext : ∀ {w : Nat} (x : BitVec w), w ≤ 32 → (x.setWidth 32).toNat = x.toNat := fun _ hw =>
      BitVec.toNat_setWidth_of_le hw
    refine ⟨hext _ (by decide), hext _ (by decide), hext _ (by decide), hext _ (by decide), hext _ (by decide),
      hext _ (by decide), hext _ (by decide), hext _ (by decide), hext _ (by decide), hext _ (by decide), rfl, htable,
      dscmdReg_wr s.regs, hreserved, hstart, hext _ (by decide), rfl, hext _ (by decide), fun i hi => ?_, fun i hi => ?_,
      fun n hn => ?_⟩
    · rw [readReg_win s hi, hext _ (by decide)]
    · rw [readReg_dswin s hi, hext _ (by decide)]
    · obtain rfl | rfl | hbeyond := hn
      · rfl
      · rfl
      · exact readReg_of_reserved hbeyond s

/-- Settles O59: by the register number. -/
theorem plainWritesStoreTheirFields : Obligations.PlainWritesStoreTheirFields := by
  intro s n v rest hrst hin hctrl hevt hcrc
  refine ⟨writeReg n v s.regs, ?_, ?_⟩
  · rw [step_of_csrWrite hrst hin, csrWrite_of_plain (decodeCsr_of_plain hctrl hevt hcrc)]
    rfl
  refine ⟨?_, ?_, ?_, ?_, ?_, ?_, ?_, ?_, ?_, ?_, ?_, ?_, fun i hi => ?_, fun i hi => ?_, fun hn => ?_⟩
  case refine_13 =>
    rintro rfl
    exact writeReg_win s.regs v hi
  case refine_14 =>
    rintro rfl
    exact writeReg_dswin s.regs v hi
  case refine_15 =>
    obtain rfl | rfl | rfl | rfl | hlow | rfl | hhigh := hn
    · rfl
    · rfl
    · rfl
    · rfl
    · exact writeReg_of_reserved (.inl hlow) v s.regs
    · rfl
    · exact writeReg_of_reserved (.inr hhigh) v s.regs
  all_goals
    rintro rfl
    rfl

/-- Settles O60: some bit of the conjunction is set. -/
theorem irqFollowsEnabledFlags : Obligations.IrqFollowsEnabledFlags := by
  intro s
  have hirq : s.irq = true ↔ s.regs.evt &&& s.regs.ien ≠ 0#5 := decide_eq_true_iff
  rw [hirq]
  constructor
  · intro hne
    by_contra hnone
    refine hne (BitVec.eq_of_getLsbD_eq fun i hi => ?_)
    rw [BitVec.getLsbD_and, BitVec.getLsbD_zero, ← Bool.not_eq_true, Bool.and_eq_true]
    exact fun hbits => hnone ⟨i, hi, hbits⟩
  · rintro ⟨i, -, hevt, hien⟩ hzero
    have hbit : (s.regs.evt &&& s.regs.ien).getLsbD i = true := by rw [BitVec.getLsbD_and, hevt, hien]; rfl
    rw [hzero, BitVec.getLsbD_zero] at hbit
    exact Bool.noConfusion hbit

end

section
/-! PROOFS. The tests of a received frame (42_frame_codec.md R195), the frames a server drops (R331), and the broadcast
writes (45_pdu_writes.md R265, 47_server_fsm.md R335). -/

namespace Sys2Proof.Machine

/-! ## The tests of a frame (R195) -/

/-- With no character lost or spoiled, a gap or a missing byte decides (R195). -/
theorem decodeFrame_of_truncated (gap : Bool) (f : List Byte) (h : gap = true ∨ f.length < 4) :
    decodeFrame false false gap f = .error .truncated := by
  have hshort : (gap || decide (f.length < 4)) = true := by simpa using h
  simp only [decodeFrame, Bool.false_eq_true, if_false, hshort, if_true]

/-- A frame of at least four bytes is its address, its function code, the payload and the two bytes of the CRC (R90). -/
theorem frame_eq_fields (f : List Byte) (hlen : 4 ≤ f.length) :
    ∃ c d, f = f.getD 0 0#8 :: f.getD 1 0#8 :: (f.take (f.length - 2)).drop 2 ++ [c, d] := by
  obtain ⟨c, d, hlast⟩ : ∃ c d, f.drop (f.length - 2) = [c, d] :=
    List.length_eq_two.1 (by rw [List.length_drop]; omega)
  have hbody : (f.take (f.length - 2)) ++ [c, d] = f := hlast ▸ List.take_append_drop (f.length - 2) f
  have hbodyLen : (f.take (f.length - 2)).length = f.length - 2 := by simp
  generalize f.take (f.length - 2) = body at hbody hbodyLen
  match body with
  | [] | [_] => simp at hbodyLen; omega
  | a :: b :: p =>
    subst hbody
    exact ⟨c, d, rfl⟩

/-! ## Broadcast writes (R335) -/

/-- A listening server takes a frame to address 0 with a write function as a broadcast (R332, R335). -/
theorem acceptFrame_of_broadcast (fc : Byte) (p : List Byte) (run : PduFn) (s : State) (h : ServingBroadcast s) :
    acceptFrame 0#8 fc p run s = broadcast fc run { s with sstate := .dispatch } := by
  obtain ⟨hopen, hen, hrole, hunit, hbcast⟩ := h
  simp [acceptFrame, State.listening, serverFrame, hopen, hen, hrole, hbcast, Ne.symm hunit]

/-- A broadcast of a supported write stores what the function stores and is recorded (R335). -/
theorem broadcast_of_ok (fc : Byte) (run : PduFn) (s : State) (m : Memory) (r : Reply) (hwrite : isWriteFc fc = true)
    (hsup : supported s.inst fc = true) (h : run s.inst s.mem = .ok (m, r)) :
    broadcast fc run s = .next { recordRequest fc r.exc true { s with mem := m } with sstate := .listen } := by
  simp [broadcast, hwrite, hsup, h]

/-- A write function's broadcast does to the Data Store and the record what its request to this unit does (R265). -/
theorem acceptFrame_broadcast_of_addressed {fc : Byte} {run : PduFn} (hfn : RouterFn fc run) (p : List Byte) {s : State}
    (hserving : ServingBroadcast s) (hwrite : isWriteFc fc = true) (hsup : supported s.inst fc = true) :
    ∃ u, acceptFrame s.cfg.unit fc p run s = .next u ∧
      acceptFrame 0#8 fc p run s = .next { s with
        mem := u.mem
        sstate := .listen
        regs := { s.regs with
          evt := s.regs.evt ||| 0x02#5
          srv := { s.regs.srv with lastFc := fc, lastExc := u.regs.srv.lastExc, lastBcast := true } } } := by
  obtain ⟨m, r, hrun, -⟩ := hfn s.inst s.mem
  have hunit : Serving s.cfg.unit s := by
    obtain ⟨hopen, hen, hrole, -⟩ := hserving
    exact ⟨hopen, hen, hrole, rfl⟩
  exact ⟨_, (acceptFrame_of_serving _ fc p run s hunit).trans (addressed_of_ok fc run { s with sstate := .dispatch } m r hrun),
    (acceptFrame_of_broadcast fc p run s hserving).trans
      (broadcast_of_ok fc run { s with sstate := .dispatch } m r hwrite hsup hrun)⟩

end Sys2Proof.Machine

open Sys2Proof Sys2Proof.Machine

/-- Settles O3: the receiver's flags and the length are tested before the CRC, and an accepted frame is its fields. -/
theorem frameTestsInOrder : Obligations.FrameTestsInOrder := by
  intro overrun charErr gap f
  refine ⟨?_, ?_, ?_, ?_, ?_⟩
  · rintro rfl
    rfl
  · rintro rfl rfl
    rfl
  · rintro rfl rfl h
    exact decodeFrame_of_truncated gap f h
  · rintro rfl rfl rfl hlen hcrc
    rw [decodeFrame_of_length f hlen, if_neg (by simp [hcrc])]
  · rintro rfl rfl rfl hlen hcrc
    obtain ⟨c, d, hfields⟩ := frame_eq_fields f hlen
    exact ⟨_, c, d, hfields, by rw [decodeFrame_of_length f hlen, if_pos hcrc]⟩

/-- Settles O19: the frame to the unit and the broadcast run the same function of the router, which answers. -/
theorem broadcastWriteIsAppliedSilently : Obligations.BroadcastWriteIsAppliedSilently := by
  intro s q r hserving i hi
  rw [List.mem_append] at hi
  obtain hi | hi := hi
  · simp only [List.mem_cons, List.not_mem_nil, or_false] at hi
    obtain rfl | rfl := hi
    · exact acceptFrame_broadcast_of_addressed (routerFn_routed (routerFn_writeSingleCoil q)) (pairPayload q) hserving rfl
        (supported_of_base _ _ (by decide))
    · exact acceptFrame_broadcast_of_addressed (routerFn_routed (routerFn_writeSingleRegister q)) (pairPayload q) hserving rfl
        (supported_of_base _ _ (by decide))
  · split_ifs at hi with hext
    · simp only [List.mem_cons, List.not_mem_nil, or_false] at hi
      obtain rfl | rfl := hi
      · exact acceptFrame_broadcast_of_addressed (routerFn_routed (routerFn_writeMultipleCoils r)) (multiPayload r) hserving rfl
          (supported_of_ext _ _ hext (by decide))
      · exact acceptFrame_broadcast_of_addressed (routerFn_routed (routerFn_writeMultipleRegisters r)) (multiPayload r) hserving
          rfl (supported_of_ext _ _ hext (by decide))
    · exact absurd hi List.not_mem_nil

/-- Settles O47: the tick ends the frame, its failed test drops it, and the idle client does nothing on the tick. -/
theorem serverDropsBadFrames : Obligations.ServerDropsBadFrames := by
  intro s rest k hrst hin hopen htx hrole hclient hen hrx hsil hdec
  have hdrop : frameEnd (s.ticked rest) = .next (serverFrameError k (setRxState .idle (s.ticked rest))) :=
    frameEnd_of_frameError_server _ k hrole hdec
  refine ⟨silNext s.sil, silNext_toNat s.sil, ?_⟩
  rw [step_frameEnd s rest hrst hin hopen htx (by simp [hclient]) hen hrx hsil, hdrop, andThen_of_next]
  exact congrArg _ (clientTick_of_idle _ hclient)

end
